-- ==== Sys2Proof/Word.lean ====
section
/-! DEFINITION. The word types of the asp8 ROM core: the fixed widths of spec/00_scope.md R10 and the bit
notation of R13 (bit 0 is the least significant bit; concatenation `a ++ b` has `a` in the high bits). -/

namespace Sys2Proof

/-- A byte: the data bus, a segment pattern, one bank of a control word (R10). -/
abbrev Byte := BitVec 8

/-- A presented address, 16 bits (R10). -/
abbrev Addr := BitVec 16

/-- A control word, 24 bits in three banks (R10, R95). -/
abbrev CtlWord := BitVec 24

/-- A command word on the sequencer's port, 19 bits (R97). -/
abbrev CmdWord := BitVec 19

end Sys2Proof
end

