-- ==== Sys2Proof/Config.lean ====
section
/-! DEFINITION. The configuration of the block and its environment (spec/00_scope.md R11, R12; 93_implementation_defined.md
section 2): plain data that State carries and no operation changes, so that a statement about every state is a
statement about every configuration. Then the free values: opaque constants with no body, for what no source fixes.
The checks of R310 and the laws of the control-word table are in Machine/Configuration.lean. -/

namespace Sys2Proof

/-- The two encoder variants of the block, one per build (R2). -/
inductive Variant where
  | disp  -- the display-segment encoder
  | cs    -- the control-store encoder
  deriving DecidableEq, Repr

/-- The build-time parameters (R11), in the order of its table; then the environment's OPEN timing figures (R11, R310
item 5) and whether the device accepts byte writes (R295). A value of this type need not meet R310: `Machine.configValid`
says which do, and a step refuses the others (R283). -/
structure Config where
  /-- `VARIANT`. -/
  variant : Variant
  /-- `DEVICE_SIZE`, a power of two up to 65536. `AW` is derived from it. -/
  deviceSize : Nat
  /-- `P_BEGIN`, the first address programmed. -/
  pBegin : Nat
  /-- `P_END`, one past the last address programmed. -/
  pEnd : Nat
  /-- `V_BEGIN`, the first address verified. -/
  vBegin : Nat
  /-- `V_END`, one past the last address verified. -/
  vEnd : Nat
  /-- `PAGE_SIZE`, addresses to one PAGE event. -/
  pageSize : Nat
  /-- `SEG[0..15]`, the segment table (R130). -/
  seg : Vector Byte 16
  /-- `SIGN_MASK`, the sign mark (R135). -/
  signMask : Byte
  /-- `CW(op, c)`: 64 opcodes of 8 cycles (R160). -/
  cw : Vector (Vector CtlWord 8) 64
  /-- `LEN(op)`, the sequence lengths (R161). -/
  len : Vector Nat 64
  /-- `FETCH1`, the second fetch step's word (R163). -/
  fetch1 : CtlWord
  /-- `SIG_POS(PC_OUT)` (R168). -/
  sigPcOut : Fin 24
  /-- `SIG_POS(MAR_IN)` (R168). -/
  sigMarIn : Fin 24
  /-- `SIG_POS(END)`, the sequence-end marker (R168). -/
  sigEnd : Fin 24
  /-- `SIG_POS` of the signals no source names (R168: the full list is OPEN). -/
  sigOther : List (Fin 24)
  /-- `RSV_OPS`, the opcodes not assigned a real instruction (R167). -/
  rsvOps : List (BitVec 6)
  /-- `NOP_OP`, the NOP opcode of each addressing mode (R167). -/
  nopOp : Vector (BitVec 6) 4
  /-- `T_SU`, ticks `SER_DATA` is stable before a rising edge of `SER_CLK`. -/
  tSu : Nat
  /-- `T_HI`, ticks `SER_CLK` stays high. -/
  tHi : Nat
  /-- `T_SETTLE`, ticks from driving the data to the falling edge of `WE_N`. -/
  tSettle : Nat
  /-- `T_WE`, the write-enable pulse's width. -/
  tWe : Nat
  /-- `T_HOLD`, ticks after the rising edge of `WE_N`. -/
  tHold : Nat
  /-- `T_ACC`, ticks READ waits before it samples. -/
  tAcc : Nat
  /-- `T_TURN`, ticks of a bus turnaround. -/
  tTurn : Nat
  /-- `t_WC`, the device's internal write cycle. -/
  tWC : Nat
  /-- `t_ACCD`, the device's access time. -/
  tAccD : Nat
  /-- The shift register's minimum set-up time (R310 item 5). -/
  minSu : Nat
  /-- The shift register's minimum clock-high time (R310 item 5). -/
  minHi : Nat
  /-- The device's minimum write pulse (R310 item 5). -/
  minWe : Nat
  /-- The device's minimum hold time (R310 item 5). -/
  minHold : Nat
  /-- Whether the device accepts byte writes (R295). -/
  devWritable : Bool
  deriving DecidableEq, Repr

/-! The free values. Each is opaque: no proof can see what it is, so a claim holds whatever it is (notes/assumptions/2
and 3). -/

/-- The initial contents of device byte `a`, "one value per byte" (R35, U8). -/
opaque Config.initByte : Nat → Byte

/-- The `n`-th `draw` of a run: a floating or contended bus, a garbled device byte (R64, R67, R293). -/
opaque Config.freeByte : Nat → Byte

/-- The `n`-th draw of an environment address at power-up (R34, R36). -/
opaque Config.freeAddr : Nat → Addr

/-- The OPEN entries of the segment table (R130). -/
opaque Config.openSeg : Nat → Byte

/-- The OPEN sign mark (R135). -/
opaque Config.openSignMask : Byte

/-- The OPEN control words, by opcode and cycle (R160). -/
opaque Config.openCw : Nat → Nat → CtlWord

/-- The OPEN sequence lengths (R161). -/
opaque Config.openLen : Nat → Nat

/-- The OPEN second fetch word (R163). -/
opaque Config.openFetch1 : CtlWord

/-- The OPEN signal positions (R168). -/
opaque Config.openSigPos : Nat → Fin 24

/-- The OPEN positions of the unnamed signals (R168). -/
opaque Config.openSigOther : List (Fin 24)

/-- The OPEN reserved opcodes (R167). -/
opaque Config.openRsvOps : List (BitVec 6)

/-- The OPEN NOP opcodes, by addressing mode (R167). -/
opaque Config.openNopOp : Nat → BitVec 6

/-- The default `DEVICE_SIZE` of a variant: `0x8000` for `DISP`, `0x2000` for `CS` (R11, D5). -/
def Config.defaultSize : Variant → Nat
  | .disp => 0x8000
  | .cs => 0x2000

/-- The default `T_SETTLE`, 5 ms of a clock of `fClk` Hz: `ceil(0.005 * F_CLK)` (R11, R315). -/
def Config.defaultSettle (fClk : Nat) : Nat := (5 * fClk + 999) / 1000

/-- A build of a variant with every default of R11 (the two ranges are the whole device, `T_TURN = T_SETTLE`) and OPEN
tables but for `SEG[5] = 0x19` (R130). The tick counts R11 gives no default for are arguments. The external minima and
`devWritable` are DESIGN CHOICE (notes/assumptions/1). -/
def Config.build (v : Variant) (tSettle tAcc tWC tAccD : Nat) : Config where
  variant := v
  deviceSize := Config.defaultSize v
  pBegin := 0
  pEnd := Config.defaultSize v
  vBegin := 0
  vEnd := Config.defaultSize v
  pageSize := 512
  seg := Vector.ofFn fun d => if d.val = 5 then 0x19#8 else Config.openSeg d.val
  signMask := Config.openSignMask
  cw := Vector.ofFn fun op => Vector.ofFn fun c => Config.openCw op.val c.val
  len := Vector.ofFn fun op => Config.openLen op.val
  fetch1 := Config.openFetch1
  sigPcOut := Config.openSigPos 0
  sigMarIn := Config.openSigPos 1
  sigEnd := Config.openSigPos 2
  sigOther := Config.openSigOther
  rsvOps := Config.openRsvOps
  nopOp := Vector.ofFn fun am => Config.openNopOp am.val
  tSu := 1
  tHi := 1
  tSettle := tSettle
  tWe := 1
  tHold := 1
  tAcc := tAcc
  tTurn := tSettle
  tWC := tWC
  tAccD := tAccD
  minSu := 1
  minHi := 1
  minWe := 1
  minHold := 1
  devWritable := true

/-- The configuration the model powers up with: the display variant's build with the tick counts of the spec's
configuration K1 (95_test_vectors.md) where R11 gives no number. DESIGN CHOICE (notes/assumptions/1): statements quantify
over the configuration instead. -/
def Config.boot : Config := Config.build .disp 3 1 3 1

end Sys2Proof
end

