-- ==== Sys2Proof/Syntax.lean ====
section
/-! DEFINITION. The instructions of the block: one constructor per row of spec/opcode_table.json. The block fetches no
program (R3); its instructions are the decoder classes of each encoder (R102, R103) and the sequencer's bus commands
(R104). An operand has the width of its field; a field the spec calls ignored is kept as an operand that no meaning
reads, so that decoding drops no bit. -/

namespace Sys2Proof

/-- The three word formats that are decoded: `DA16` (R90), `CA16` (R91) and `CMD19` (R97). -/
inductive Format where
  | da16 | ca16 | cmd19
  deriving DecidableEq, Repr

/-- An instruction of the block. -/
inductive Instr where
  /-- `DISP.OCT`: octal digit of `v` in digit slot `slot` (R133). -/
  | dispOct (slot : BitVec 2) (v : BitVec 12)
  /-- `DISP.DEC0`: least-significant decimal digit of `v`, with the sign mark (R135). -/
  | dispDec0 (v : BitVec 12)
  /-- `DISP.DEC1`: decimal digit of slot 1 (R136). -/
  | dispDec1 (v : BitVec 12)
  /-- `DISP.DEC2`: decimal digit of slot 2 (R136). -/
  | dispDec2 (v : BitVec 12)
  /-- `DISP.DEC3`: decimal digit of slot 3 (R136). -/
  | dispDec3 (v : BitVec 12)
  /-- `DISP.GUARD`: outside the 15-bit space; `rest` is ignored (R137). -/
  | dispGuard (rest : BitVec 15)
  /-- `CS.BANK0`: bits 7..0 of the control word of cycle `c` of opcode `o` (R173). -/
  | csBank0 (c : BitVec 3) (o : BitVec 6)
  /-- `CS.BANK1`: bits 15..8 (R173). -/
  | csBank1 (c : BitVec 3) (o : BitVec 6)
  /-- `CS.BANK2`: bits 23..16 (R173). -/
  | csBank2 (c : BitVec 3) (o : BitVec 6)
  /-- `CS.BANK3`: the reserved bank; both fields are ignored (R174). -/
  | csBank3 (c : BitVec 3) (o : BitVec 6)
  /-- `CS.OOR11`: beyond the logical table, highest set bit 11 (R175). -/
  | csOor11 (rest : BitVec 11)
  /-- `CS.OOR12`: highest set bit 12 (R175). -/
  | csOor12 (rest : BitVec 12)
  /-- `CS.OOR13`: highest set bit 13 (R175). -/
  | csOor13 (rest : BitVec 13)
  /-- `CS.OOR14`: highest set bit 14 (R175). -/
  | csOor14 (rest : BitVec 14)
  /-- `CS.OOR15`: highest set bit 15 (R175). -/
  | csOor15 (rest : BitVec 15)
  /-- `NONE`: no operation; `arg` is ignored (R194). -/
  | cmdNone (arg : BitVec 16)
  /-- `PRESENT a`: shift `a` into the external shift register (R200). -/
  | present (a : BitVec 16)
  /-- `WRITE b`: write `b` at the presented address; `ign` is `ARG[15:8]`, ignored (R205). -/
  | write (ign : BitVec 8) (b : BitVec 8)
  /-- `READ`: read one byte at the presented address; `arg` is ignored (R210). -/
  | read (arg : BitVec 16)
  /-- `TURN_READ`: hand the data lines to the device; `arg` is ignored (R215). -/
  | turnRead (arg : BitVec 16)
  /-- `TURN_WRITE`: take the data lines from the device; `arg` is ignored (R218). -/
  | turnWrite (arg : BitVec 16)
  deriving DecidableEq, Repr

/-- A word with the format it is read in: an address handed to one of the two encoders, or a command on the port. -/
inductive CodeWord where
  | da16 (a : Addr)
  | ca16 (a : Addr)
  | cmd19 (w : CmdWord)
  deriving DecidableEq, Repr

/-- What decoding a word answers: an instruction, or a refusal by name. -/
inductive Decoded where
  | instr (i : Instr)
  /-- A command word whose code `k` is `110` or `111` (R107, R220). -/
  | reservedCommand (k : BitVec 3)
  deriving DecidableEq, Repr

/-- A row of the decoder table (R102 to R104): the words `w` of the format with `w and mask = match`. -/
structure Row where
  mnemonic : String
  format : Format
  pattern : Nat
  mask : Nat
  deriving DecidableEq, Repr

/-- The format an instruction's word has. -/
def Instr.format : Instr → Format
  | .dispOct .. | .dispDec0 .. | .dispDec1 .. | .dispDec2 .. | .dispDec3 .. | .dispGuard .. => .da16
  | .csBank0 .. | .csBank1 .. | .csBank2 .. | .csBank3 .. | .csOor11 .. | .csOor12 .. | .csOor13 .. | .csOor14 ..
  | .csOor15 .. => .ca16
  | .cmdNone .. | .present .. | .write .. | .read .. | .turnRead .. | .turnWrite .. => .cmd19

/-- The table row of an instruction (spec/opcode_table.json; R102, R103, R104). -/
def Instr.row : Instr → Row
  | .dispOct .. => ⟨"DISP.OCT", .da16, 0x0000, 0xC000⟩
  | .dispDec0 .. => ⟨"DISP.DEC0", .da16, 0x4000, 0xF000⟩
  | .dispDec1 .. => ⟨"DISP.DEC1", .da16, 0x5000, 0xF000⟩
  | .dispDec2 .. => ⟨"DISP.DEC2", .da16, 0x6000, 0xF000⟩
  | .dispDec3 .. => ⟨"DISP.DEC3", .da16, 0x7000, 0xF000⟩
  | .dispGuard .. => ⟨"DISP.GUARD", .da16, 0x8000, 0x8000⟩
  | .csBank0 .. => ⟨"CS.BANK0", .ca16, 0x0000, 0xFE00⟩
  | .csBank1 .. => ⟨"CS.BANK1", .ca16, 0x0200, 0xFE00⟩
  | .csBank2 .. => ⟨"CS.BANK2", .ca16, 0x0400, 0xFE00⟩
  | .csBank3 .. => ⟨"CS.BANK3", .ca16, 0x0600, 0xFE00⟩
  | .csOor11 .. => ⟨"CS.OOR11", .ca16, 0x0800, 0xF800⟩
  | .csOor12 .. => ⟨"CS.OOR12", .ca16, 0x1000, 0xF000⟩
  | .csOor13 .. => ⟨"CS.OOR13", .ca16, 0x2000, 0xE000⟩
  | .csOor14 .. => ⟨"CS.OOR14", .ca16, 0x4000, 0xC000⟩
  | .csOor15 .. => ⟨"CS.OOR15", .ca16, 0x8000, 0x8000⟩
  | .cmdNone .. => ⟨"NONE", .cmd19, 0x00000, 0x70000⟩
  | .present .. => ⟨"PRESENT", .cmd19, 0x10000, 0x70000⟩
  | .write .. => ⟨"WRITE", .cmd19, 0x20000, 0x70000⟩
  | .read .. => ⟨"READ", .cmd19, 0x30000, 0x70000⟩
  | .turnRead .. => ⟨"TURN_READ", .cmd19, 0x40000, 0x70000⟩
  | .turnWrite .. => ⟨"TURN_WRITE", .cmd19, 0x50000, 0x70000⟩

end Sys2Proof
end

