-- ==== Sys2Proof/WellFormed.lean ====
section
/-! DEFINITION. Which instructions a build has. Operand widths are in the types of Syntax.lean, so what is left to check is
R2: a build holds one encoder, so only that variant's decoder classes are its instructions; the commands are shared
(R2, "Both instances share one programming/verification protocol"). -/

namespace Sys2Proof

/-- `i` is an instruction of a build of variant `v` (R2, R11). -/
def Instr.wellFormed (v : Variant) (i : Instr) : Bool :=
  match i.format with
  | .da16 => v == .disp
  | .ca16 => v == .cs
  | .cmd19 => true

end Sys2Proof
end

