-- ==== Sys2Proof/Decode.lean ====
section
/-! DEFINITION. The decoders of the three formats (spec/30_encoding.md R102, R103, R104; class selection R131 and R170), total on
every word, and after them the encoder, written from the same tables. A display or control-store address always has a
class; of the command words the reserved codes `110` and `111` are rejected by name (R107). -/

namespace Sys2Proof

/-- Field `a[lo+n-1 : lo]`, unsigned (R13). -/
def field {w : Nat} (a : BitVec w) (lo n : Nat) : BitVec n := a.extractLsb' lo n

/-- The display variant's decoder (R131): guard bit 15, mode bit 14, digit slot in bits 13:12, value in bits 11:0 (R90). -/
def decodeDisp (a : Addr) : Instr :=
  if field a 15 1 = 1#1 then .dispGuard (field a 0 15)
  else if field a 14 1 = 0#1 then .dispOct (field a 12 2) (field a 0 12)
  else if field a 12 2 = 0#2 then .dispDec0 (field a 0 12)
  else if field a 12 2 = 1#2 then .dispDec1 (field a 0 12)
  else if field a 12 2 = 2#2 then .dispDec2 (field a 0 12)
  else .dispDec3 (field a 0 12)

/-- The control-store variant's decoder (R170): high bits 15:11, bank 10:9, cycle 8:6, opcode 5:0 (R91); an address with
a high bit set falls in the row of its highest set bit (R103). -/
def decodeCs (a : Addr) : Instr :=
  if field a 15 1 = 1#1 then .csOor15 (field a 0 15)
  else if field a 14 1 = 1#1 then .csOor14 (field a 0 14)
  else if field a 13 1 = 1#1 then .csOor13 (field a 0 13)
  else if field a 12 1 = 1#1 then .csOor12 (field a 0 12)
  else if field a 11 1 = 1#1 then .csOor11 (field a 0 11)
  else if field a 9 2 = 0#2 then .csBank0 (field a 6 3) (field a 0 6)
  else if field a 9 2 = 1#2 then .csBank1 (field a 6 3) (field a 0 6)
  else if field a 9 2 = 2#2 then .csBank2 (field a 6 3) (field a 0 6)
  else .csBank3 (field a 6 3) (field a 0 6)

/-- The command decoder (R97, R104): code in bits 18:16, operand in bits 15:0 (R101). -/
def decodeCmd (w : CmdWord) : Decoded :=
  if field w 16 3 = 0#3 then .instr (.cmdNone (field w 0 16))
  else if field w 16 3 = 1#3 then .instr (.present (field w 0 16))
  else if field w 16 3 = 2#3 then .instr (.write (field w 8 8) (field w 0 8))
  else if field w 16 3 = 3#3 then .instr (.read (field w 0 16))
  else if field w 16 3 = 4#3 then .instr (.turnRead (field w 0 16))
  else if field w 16 3 = 5#3 then .instr (.turnWrite (field w 0 16))
  else .reservedCommand (field w 16 3)

/-- The decoder of a build's encoder: the class of an address under variant `v` (R2, R102, R103). -/
def decodeAddr (v : Variant) (a : Addr) : Instr :=
  match v with
  | .disp => decodeDisp a
  | .cs => decodeCs a

/-- Decoding a word of any format. -/
def decode : CodeWord → Decoded
  | .da16 a => .instr (decodeDisp a)
  | .ca16 a => .instr (decodeCs a)
  | .cmd19 w => decodeCmd w

/-- The word of an instruction, field by field from the formats `DA16` (R90), `CA16` (R91) and `CMD19` (R97). -/
def encode : Instr → CodeWord
  | .dispOct slot v => .da16 (0#1 ++ 0#1 ++ slot ++ v)
  | .dispDec0 v => .da16 (0#1 ++ 1#1 ++ 0#2 ++ v)
  | .dispDec1 v => .da16 (0#1 ++ 1#1 ++ 1#2 ++ v)
  | .dispDec2 v => .da16 (0#1 ++ 1#1 ++ 2#2 ++ v)
  | .dispDec3 v => .da16 (0#1 ++ 1#1 ++ 3#2 ++ v)
  | .dispGuard rest => .da16 (1#1 ++ rest)
  | .csBank0 c o => .ca16 (0#5 ++ 0#2 ++ c ++ o)
  | .csBank1 c o => .ca16 (0#5 ++ 1#2 ++ c ++ o)
  | .csBank2 c o => .ca16 (0#5 ++ 2#2 ++ c ++ o)
  | .csBank3 c o => .ca16 (0#5 ++ 3#2 ++ c ++ o)
  | .csOor11 rest => .ca16 (0#4 ++ 1#1 ++ rest)
  | .csOor12 rest => .ca16 (0#3 ++ 1#1 ++ rest)
  | .csOor13 rest => .ca16 (0#2 ++ 1#1 ++ rest)
  | .csOor14 rest => .ca16 (0#1 ++ 1#1 ++ rest)
  | .csOor15 rest => .ca16 (1#1 ++ rest)
  | .cmdNone arg => .cmd19 (0#3 ++ arg)
  | .present a => .cmd19 (1#3 ++ a)
  | .write ign b => .cmd19 (2#3 ++ ign ++ b)
  | .read arg => .cmd19 (3#3 ++ arg)
  | .turnRead arg => .cmd19 (4#3 ++ arg)
  | .turnWrite arg => .cmd19 (5#3 ++ arg)

/-- The word's bits as a number, bit 0 least significant (R13). -/
def CodeWord.bits : CodeWord → Nat
  | .da16 a => a.toNat
  | .ca16 a => a.toNat
  | .cmd19 w => w.toNat

/-- The format a word is read in. -/
def CodeWord.format : CodeWord → Format
  | .da16 _ => .da16
  | .ca16 _ => .ca16
  | .cmd19 _ => .cmd19

/-- The instruction of a decoding, if it is one. -/
def Decoded.instr? : Decoded → Option Instr
  | .instr i => some i
  | .reservedCommand _ => none

/-- The build under which a bare 16-bit table word is read. Every 16-bit word has a class in each variant and a bare word
does not say which build it is for. Below `0x4000` the control-store rows are the finer ones (banks and `CS.OOR11` to
`CS.OOR13` against the one class `DISP.OCT`), from `0x4000` on the display rows are. DESIGN CHOICE, of the host's
interface only (notes/assumptions/11). -/
def tableVariant (w : Nat) : Variant :=
  if w % 65536 < 0x4000 then .cs else .disp

/-- The instruction the decoder reads from a table word: 16 bits are an address (R90, R91), 19 bits (24 in whole bytes)
a command word, whose lines above bit 18 do not exist (R97). -/
def decodeTableWord (nbits w : Nat) : Option Instr :=
  if nbits = 16 then some (decodeAddr (tableVariant w) (BitVec.ofNat 16 w))
  else if nbits = 19 ∨ nbits = 24 then (decodeCmd (BitVec.ofNat 19 w)).instr?
  else none

end Sys2Proof
end

