-- ==== Sys2Proof/Machine/State.lean ====
section
/-! DEFINITION. The state of the block and of its environment, as plain data (spec/10_state.md R20 to R38), the reasons a step can
stop, and the state at power-up (70_reset_and_hazards.md R290, R292). A line is a `Bool` (`true` = level 1), a register
software sees as a word is a `BitVec`, a counter or a memory key is a `Nat`. -/

namespace Sys2Proof.Machine

/-- `CTRL`, the controller's state (R23). -/
inductive Ctrl where
  | idle   -- `C_IDLE`
  | pAddr  -- `C_P_ADDR`
  | pData  -- `C_P_DATA`
  | pDone  -- `C_P_DONE`
  | vAddr  -- `C_V_ADDR`
  | vRead  -- `C_V_READ`
  | vEmit  -- `C_V_EMIT`
  | done   -- `C_DONE`
  deriving DecidableEq, Repr

/-- `SEQ`, the sequencer's state (R25). -/
inductive Seq where
  | idle      -- `S_IDLE`
  | shSetup   -- `S_SH_SETUP`
  | shHigh    -- `S_SH_HIGH`
  | wrSettle  -- `S_WR_SETTLE`
  | wrLow     -- `S_WR_LOW`
  | wrHold    -- `S_WR_HOLD`
  | rdWait    -- `S_RD_WAIT`
  | turnR     -- `S_TURN_R`
  | turnW     -- `S_TURN_W`
  deriving DecidableEq, Repr

/-- An event handed to the sink (R98, R246). -/
inductive Event where
  | start
  | page
  | finish
  | byte (a : Addr) (v : Byte)
  deriving DecidableEq, Repr

/-- What drives the command port (R191, D40): the block's own controller, or a test program's list of command words,
which replaces it. -/
inductive Drive where
  | controller
  | program (words : List CmdWord)
  deriving DecidableEq, Repr

/-- Device storage: the bytes written so far, in one canonical form (addresses strictly rising, see `Memory.wf`). An
address not listed holds its initial contents, which no source gives (R35): it is read as `Config.initByte`.
DESIGN CHOICE (notes/assumptions/5). -/
abbrev Memory := List Host.Cell

/-- The state of the machine in one tick. -/
structure State where
  /-- The build-time configuration and the read-only tables (R11, R33). -/
  cfg : Config
  /-- `AC`, the address counter, 17 bits (R22). -/
  ac : BitVec 17
  /-- `CTRL` (R23). -/
  ctrl : Ctrl
  /-- `RDATA`, the byte sampled by the last READ (R24). -/
  rdata : Byte
  /-- `SEQ` (R25). -/
  seq : Seq
  /-- `AREG`, the address being shifted out (R26). -/
  areg : Addr
  /-- `BI`, index of the address bit being shifted (R27). -/
  bi : BitVec 4
  /-- `DC`, ticks left in the current timed state (R28); it fits in `DW` bits. -/
  dc : Nat
  /-- `SER_DATA` (R21, R29). -/
  serData : Bool
  /-- `SER_CLK` (R21, R29). -/
  serClk : Bool
  /-- `D_OUT` (R21, R29). -/
  dOut : Byte
  /-- `DIR`: 1 when the block drives the data lines (R21, R29). -/
  dir : Bool
  /-- `WE_N`, active low (R21, R29). -/
  weN : Bool
  /-- `OE_N`, active low (R21, R29). -/
  oeN : Bool
  /-- `SINK_VALID` (R29, R246). -/
  sinkValid : Bool
  /-- `SINK_KIND` (R29, R246). -/
  sinkKind : BitVec 2
  /-- `SINK_ADDR` (R29, R246). -/
  sinkAddr : Addr
  /-- `SINK_BYTE` (R29, R246). -/
  sinkByte : Byte
  /-- The level of the input `RST` in this tick and the coming ones; past the list's end it is 0 (R21, R291;
  DEDUCED, notes/assumptions/10). -/
  rst : List Bool
  /-- What drives the command port (R191). -/
  drive : Drive
  /-- `SR`, the external shift register (R34). -/
  sr : Addr
  /-- `MEM`, the device's storage (R35). -/
  mem : Memory
  /-- `LAT_ADDR`, the device's latched address, below `DEVICE_SIZE` (R36). -/
  latAddr : Nat
  /-- `BUSY`, ticks left of the device's write cycle (R36). -/
  busy : Nat
  /-- The model's own: ticks until `SR` has been unchanged for `t_ACCD` ticks (R64; DEDUCED, notes/assumptions/6). -/
  accWait : Nat
  /-- The model's own: the write pulse in progress began while the device was busy (R67; DEDUCED, notes/assumptions/7). -/
  pulseBad : Bool
  /-- The model's own: index of the next free value (DESIGN CHOICE, notes/assumptions/3). -/
  draws : Nat
  /-- The events the sink has received, oldest first (R37). -/
  sink : List Event
  deriving DecidableEq, Repr

/-- The reasons a step can stop with a fault: none. "The block has no fault outcome of its own" (R283), so this type has no
constructor (DEDUCED, notes/assumptions/21). -/
inductive Fault where
  deriving DecidableEq, Repr

/-- The reasons a step can be refused (R283). -/
inductive Refusal where
  /-- Raised by no arm once every instruction has its meaning: an instruction not modelled yet. Safe: it stops. -/
  | notModelled (mnemonic : String)
  /-- Raised by a step whose configuration breaks R310: "a model refuses a configuration that breaks one". Safe. -/
  | configuration
  /-- Raised by a step of a test program whose next word has the reserved code `k` (R107, R220). Safe. -/
  | reservedCommand (k : BitVec 3)
  /-- Raised by WRITE in a test program while `DIR = 0` or `OE_N = 0` (R207). Safe. -/
  | writeDirection
  /-- Raised by READ in a test program while `DIR = 1` or `OE_N = 1` (R212). Safe. -/
  | readDirection
  deriving DecidableEq, Repr

/-- The outcome of a step or of an instruction. -/
abbrev Result := Host.Outcome State Fault Refusal

/-- The machine at power-up, which for the block's registers is reset (R290, R292). `SR` and `LAT_ADDR` are unspecified at
power-up (R34, R36): 0, DESIGN CHOICE (notes/assumptions/4), and the access wait starts anew, as in `powerCycle`
(DESIGN CHOICE, notes/assumptions/4). `MEM` lists nothing: every byte is its free initial value
(R35). The run is the controller's (R232), with `RST` released (R294). -/
def State.reset : State where
  cfg := Config.boot
  ac := 0
  ctrl := .idle
  rdata := 0
  seq := .idle
  areg := 0
  bi := 0
  dc := 0
  serData := false
  serClk := false
  dOut := 0
  dir := false
  weN := true
  oeN := true
  sinkValid := false
  sinkKind := 0
  sinkAddr := 0
  sinkByte := 0
  rst := []
  drive := .controller
  sr := 0
  mem := []
  latAddr := 0
  busy := 0
  accWait := Config.boot.tAccD - 1
  pulseBad := false
  draws := 0
  sink := []

end Sys2Proof.Machine
end

