-- ==== Sys2Proof/Machine/Configuration.lean ====
section
/-! DEFINITION. The configuration's checks (spec/70_reset_and_hazards.md R310), its derived parameters (R11), and the control-word
table with the laws the source states of it (41_controlstore_encoder.md R160 to R169), which a claim assumes by name. -/

namespace Sys2Proof.Machine

/-! ### Derived parameters (R11) -/

/-- `AW = log2(DEVICE_SIZE)`. -/
def cfgAw (c : Config) : Nat := Nat.log2 c.deviceSize

/-- The longest duration. -/
def cfgMaxTicks (c : Config) : Nat :=
  max c.tSu (max c.tHi (max c.tSettle (max c.tWe (max c.tHold (max c.tAcc c.tTurn)))))

/-- `DW = ceil(log2(max(T_*) + 1))`, the delay counter's width: the number of binary digits of the longest duration
(DEDUCED, notes/assumptions/15). -/
def cfgDw (c : Config) : Nat := if cfgMaxTicks c = 0 then 0 else Nat.log2 (cfgMaxTicks c) + 1

/-! ### The constraints of R310, item by item -/

/-- Item 1: every duration is at least 1 and fits in `DW` bits. -/
def cfgDurations (c : Config) : Bool :=
  [c.tSu, c.tHi, c.tSettle, c.tWe, c.tHold, c.tAcc, c.tTurn].all fun t => decide (1 ≤ t) && decide (t < 2 ^ cfgDw c)

/-- Item 2: `T_SETTLE >= t_WC` (R305). -/
def cfgSettleCoversWrite (c : Config) : Bool := decide (c.tWC ≤ c.tSettle)

/-- Item 3: `T_TURN >= T_SETTLE` (R306). -/
def cfgTurnCoversSettle (c : Config) : Bool := decide (c.tSettle ≤ c.tTurn)

/-- Item 4: `T_ACC >= t_ACCD` (R307). -/
def cfgAccessCovered (c : Config) : Bool := decide (c.tAccD ≤ c.tAcc)

/-- Item 5: the pulse, set-up and hold times meet the external parts' minima (DESIGN CHOICE, notes/assumptions/18). -/
def cfgMinimaMet (c : Config) : Bool :=
  decide (c.minSu ≤ c.tSu) && decide (c.minHi ≤ c.tHi) && decide (c.minWe ≤ c.tWe) && decide (c.minHold ≤ c.tHold)

/-- Item 6: `DEVICE_SIZE` is a power of two from 1 to 65536, both ranges lie in the device, and a page is not empty. -/
def cfgRanges (c : Config) : Bool :=
  decide (c.deviceSize = 2 ^ cfgAw c) && decide (1 ≤ c.deviceSize) && decide (c.deviceSize ≤ 65536) &&
  decide (c.pBegin ≤ c.pEnd) && decide (c.pEnd ≤ c.deviceSize) &&
  decide (c.vBegin ≤ c.vEnd) && decide (c.vEnd ≤ c.deviceSize) && decide (1 ≤ c.pageSize)

/-- Item 7: `SEG[5] = 0x19` (R130). -/
def cfgSegFive (c : Config) : Bool := c.seg[5] == 0x19#8

/-- R310: the configuration is one a model accepts. -/
def configValid (c : Config) : Bool :=
  cfgDurations c && cfgSettleCoversWrite c && cfgTurnCoversSettle c && cfgAccessCovered c && cfgMinimaMet c &&
  cfgRanges c && cfgSegFive c

/-! ### The control-word table (R160) -/

/-- `CW(op, c)`. -/
def cwAt (c : Config) (op : BitVec 6) (cyc : BitVec 3) : CtlWord := c.cw[op.toNat][cyc.toNat]

/-- `LEN(op)`. -/
def lenAt (c : Config) (op : BitVec 6) : Nat := c.len[op.toNat]

/-- Signal position `p` is asserted in `w` (R95, R168). -/
def asserted (w : CtlWord) (p : Fin 24) : Bool := w.getLsbD p.val

/-- `FETCH0 = (1 << SIG_POS(PC_OUT)) or (1 << SIG_POS(MAR_IN))`, exactly those two signals (R169). -/
def fetch0 (c : Config) : CtlWord := (1#24 <<< c.sigPcOut.val) ||| (1#24 <<< c.sigMarIn.val)

/-- `opcode = 4*IB + AM`, that is `{IB, AM}` (R91, R166). -/
def opcodeOf (ib : BitVec 4) (am : BitVec 2) : BitVec 6 := ib ++ am

/-- The addressing mode of an opcode, `AM = O[1:0]` (R91). -/
def modeOf (op : BitVec 6) : BitVec 2 := field op 0 2

/-- The instruction base of an opcode, `IB = O[5:2]` (R91). -/
def baseOf (op : BitVec 6) : BitVec 4 := field op 2 4

/-- The addressing modes, in the source's order (R92). -/
inductive AddrMode where
  | currentPage | zeroPage | immediate | accRelative
  deriving DecidableEq, Repr

/-- The mode a 2-bit field names: `CP` 0, `ZP` 1, `IMM` 2, `ACR` 3 (R92, D3). -/
def addrMode (am : BitVec 2) : AddrMode :=
  if am = 0#2 then .currentPage else if am = 1#2 then .zeroPage else if am = 2#2 then .immediate else .accRelative

/-- The part a cycle has in an opcode's sequence (R163, R164, R162). -/
inductive CycleRole where
  | fetchAddress  -- cycle 0, the word `FETCH0`
  | fetchInstr    -- cycle 1, the word `FETCH1`
  | addressing    -- cycle 2 of the modes CP, ZP and ACR
  | execute       -- the execute steps
  | beyond        -- at or past `LEN(op)`
  deriving DecidableEq, Repr

/-- Law `CW.mode` (R164): the role of cycle `cyc` of `op`. CP, ZP and ACR have exactly one addressing step, at cycle 2; in IMM
cycle 2 is the first execute step (DESIGN CHOICE, notes/assumptions/22). -/
def cycleRole (c : Config) (op : BitVec 6) (cyc : BitVec 3) : CycleRole :=
  if lenAt c op ≤ cyc.toNat then .beyond
  else if cyc = 0#3 then .fetchAddress
  else if cyc = 1#3 then .fetchInstr
  else if cyc = 2#3 ∧ addrMode (modeOf op) ≠ .immediate then .addressing
  else .execute

/-- The NOP opcode of the addressing mode of `op` (R167). -/
def nopFor (c : Config) (op : BitVec 6) : BitVec 6 := c.nopOp[(modeOf op).toNat]

/-- Law `CW.len` (R161). -/
def cwLen (c : Config) : Prop := ∀ op : BitVec 6, 3 ≤ lenAt c op ∧ lenAt c op ≤ 8

/-- Law `CW.zero` (R162). -/
def cwZero (c : Config) : Prop := ∀ (op : BitVec 6) (cyc : BitVec 3), lenAt c op ≤ cyc.toNat → cwAt c op cyc = 0#24

/-- Law `CW.fetch` (R163). -/
def cwFetch (c : Config) : Prop := ∀ op : BitVec 6, cwAt c op 0#3 = fetch0 c ∧ cwAt c op 1#3 = c.fetch1

/-- The instruction base of ADD: "`opcode=0` (ADD, current-page mode)" (R166). The other bases' names are OPEN. -/
def addBase : BitVec 4 := 0#4

/-- The first cycle that can be an execute step of a mode: 2 in IMM, 3 in the modes with an addressing step (R164). -/
def executeStart (am : BitVec 2) : Nat := if addrMode am = .immediate then 2 else 3

/-- Law `CW.opcode` (R166): the four NOP opcodes are one base's, and the execute steps of a base are common to its four
modes, counted from each mode's first one: where two modes both define the `n`-th execute step, it is the same word.
(Reading "the common execute steps" so is DEDUCED, notes/assumptions/22.) Whether a base's common steps bind its reserved
opcodes too is not said: R167 extends R161 to R165 to them and not R166, and they are "not assigned a real instruction",
so this law leaves them out and their words are `cwReserved`'s alone (DEDUCED, notes/assumptions/22). That the opcodes are the 16 bases times the 4
modes is `opcodeOf`. -/
def cwOpcode (c : Config) : Prop :=
  (∃ ib : BitVec 4, ∀ am : BitVec 2, c.nopOp[am.toNat] = opcodeOf ib am) ∧
  ∀ (ib : BitVec 4) (am am' : BitVec 2) (cyc cyc' : BitVec 3),
    opcodeOf ib am ∉ c.rsvOps → opcodeOf ib am' ∉ c.rsvOps →
    cycleRole c (opcodeOf ib am) cyc = .execute → cycleRole c (opcodeOf ib am') cyc' = .execute →
    cyc.toNat - executeStart am = cyc'.toNat - executeStart am' →
    cwAt c (opcodeOf ib am) cyc = cwAt c (opcodeOf ib am') cyc'

/-- Law `CW.end` (R165): the marker is asserted in cycle `LEN(op) - 1` and in no earlier one. -/
def cwEnd (c : Config) : Prop :=
  ∀ (op : BitVec 6) (cyc : BitVec 3),
    (cyc.toNat + 1 = lenAt c op → asserted (cwAt c op cyc) c.sigEnd = true) ∧
    (cyc.toNat + 1 < lenAt c op → asserted (cwAt c op cyc) c.sigEnd = false)

/-- Law `CW.reserved` (R167): a reserved opcode has its mode's NOP words, and a NOP opcode is of its own mode. -/
def cwReserved (c : Config) : Prop :=
  (∀ am : BitVec 2, modeOf (c.nopOp[am.toNat]) = am) ∧
  ∀ op ∈ c.rsvOps, lenAt c op = lenAt c (nopFor c op) ∧ ∀ cyc : BitVec 3, cwAt c op cyc = cwAt c (nopFor c op) cyc

/-- `SIG_POS` is injective (R168). -/
def sigPosInjective (c : Config) : Prop := (c.sigPcOut :: c.sigMarIn :: c.sigEnd :: c.sigOther).Nodup

end Sys2Proof.Machine
end

