-- ==== Sys2Proof/Machine/Flags.lean ====
section
/-! DEFINITION. The block stores no flag (spec/10_state.md R31). What it has instead: the encoder's combinational "negative"
flag with the sign mark it causes (R134, R135), and the status outputs computed from the state (R21, R23, R25). -/

namespace Sys2Proof.Machine

/-- `s = sext_12(V)`: -2048..2047, bit 11 is the sign (R134). -/
def signedValue (v : BitVec 12) : Int := v.toInt

/-- The negative flag: `neg = (s < 0)` (R134). -/
def negFlag (v : BitVec 12) : Bool := decide (signedValue v < 0)

/-- What the negative flag does to digit 0: XOR with `SIGN_MASK` when set, with `0x00` when clear (R135). -/
def signMark (c : Config) (neg : Bool) : Byte := if neg then c.signMask else 0x00#8

/-- `STATUS`: `0b00` Idle, `0b01` Programming, `0b10` Verifying, `0b11` Done (R23). -/
def ctrlStatus : Ctrl → BitVec 2
  | .idle => 0b00#2
  | .pAddr | .pData | .pDone => 0b01#2
  | .vAddr | .vRead | .vEmit => 0b10#2
  | .done => 0b11#2

/-- The output `STATUS` in a state (R21, R23). -/
def statusOut (s : State) : BitVec 2 := ctrlStatus s.ctrl

/-- The output `READY`: 1 exactly when `SEQ = S_IDLE` (R25). -/
def readyOut (s : State) : Bool := decide (s.seq = .idle)

end Sys2Proof.Machine
end

