-- ==== Sys2Proof/Machine/Operands.lean ====
section
/-! DEFINITION. The operand forms (spec/30_encoding.md R99 to R101): the digits a display address selects, the byte of a control
word a control-store address selects, the bank addresses (R171), and the two readings of the data lines (R69, R70). -/

namespace Sys2Proof.Machine

/-- `d_oct = (V >> (3*S)) and 7`, 0..7 (R99). -/
def octDigit (slot : BitVec 2) (v : BitVec 12) : Fin 16 :=
  ⟨(v >>> (3 * slot.toNat)).toNat % 8, by omega⟩

/-- `mag = if neg then -s else s`, 0..2048 (R99, R134). -/
def magnitude (v : BitVec 12) : Nat :=
  if negFlag v then (-signedValue v).toNat else (signedValue v).toNat

/-- `d_dec = (mag div 10^S) mod 10`, 0..9 (R99). -/
def decDigit (slot mag : Nat) : Fin 16 := ⟨mag / 10 ^ slot % 10, by omega⟩

/-- The segment pattern of a digit (R130). -/
def segAt (c : Config) (d : Fin 16) : Byte := c.seg[d]

/-- `BLANK`, all bits set (R130). -/
def blank : Byte := 0xFF#8

/-- Bank `b` of a control word: `(w >> (8*b)) and 0xFF` (R71, R100). -/
def bankByte (w : CtlWord) (b : Nat) : Byte := (w >>> (8 * b)).setWidth 8

/-- The address of bank `b` of the word for `(op, cyc)`: `(b << 9) or (cyc << 6) or op` (R171). -/
def csAddr (b : BitVec 2) (cyc : BitVec 3) (op : BitVec 6) : Addr := 0#5 ++ b ++ cyc ++ op

/-- The address of a display value in digit slot `slot`: `{0b0, mode, slot, v}` (R90). -/
def dispAddr (decimal : Bool) (slot : BitVec 2) (v : BitVec 12) : Addr := 0#1 ++ BitVec.ofBool decimal ++ slot ++ v

/-- Data line `i` of a byte on the lines: bit `i`, on write and on read (R69, R70, R94). -/
def dataLine (b : Byte) (i : Fin 8) : Bool := b.getLsbD i.val

end Sys2Proof.Machine
end

