-- ==== Sys2Proof/Machine/Sink.lean ====
section
/-! DEFINITION. The event port and the sink's contract (spec/43_byte_fsm.md R246 to R250; format `EVT26`, 30_encoding.md R98).
Text is a list of characters. -/

namespace Sys2Proof.Machine

/-- The kind code of an event (R98, R246). -/
def eventKind : Event → BitVec 2
  | .start => 0b00#2
  | .page => 0b01#2
  | .finish => 0b10#2
  | .byte _ _ => 0b11#2

/-- `emit E`: the port registers for the next tick, and the event in the sink's list. `SINK_ADDR` and `SINK_BYTE` keep their
values but for BYTE (R246, R37; DEDUCED, notes/assumptions/13). -/
def emit (e : Event) (s : State) : State :=
  match e with
  | .byte a v =>
    { s with sinkValid := true, sinkKind := eventKind e, sinkAddr := a, sinkByte := v, sink := s.sink ++ [e] }
  | _ => { s with sinkValid := true, sinkKind := eventKind e, sink := s.sink ++ [e] }

/-- The event port as one 26-bit word, `{SINK_KIND, SINK_ADDR, SINK_BYTE}`: R98 gives the fields and their widths and no bit
positions, and this order, the first field in the high bits, is a DESIGN CHOICE (notes/assumptions/26). No step reads it. -/
def eventPort (s : State) : BitVec 26 := s.sinkKind ++ s.sinkAddr ++ s.sinkByte

/-- `HEX[n]`, lowercase (R248). -/
def hexDigit (n : BitVec 4) : Char :=
  ['0', '1', '2', '3', '4', '5', '6', '7', '8', '9', 'a', 'b', 'c', 'd', 'e', 'f'].getD n.toNat '0'

/-- `hex2(v)`: the high nibble's digit, then the low nibble's (R248). -/
def hex2 (v : Byte) : List Char := [hexDigit (field v 4 4), hexDigit (field v 0 4)]

/-- What follows a byte of the dump: a newline after every 16th address, else one space (R247). -/
def separator (a : Nat) : Char := if (a + 1) % 16 = 0 then '\n' else ' '

/-- The text of one event (R247). -/
def render : Event → List Char
  | .start => ['P', 'r', 'o', 'g', 'r', 'a', 'm', 'm', 'i', 'n', 'g']
  | .page => ['.']
  | .finish => ['\n', 'F', 'i', 'n', 'i', 's', 'h', 'e', 'd', '\n']
  | .byte a v => hex2 v ++ [separator a.toNat]

/-- The text of a list of events (R247). -/
def renderAll (es : List Event) : List Char := es.flatMap render

/-- `nPages = #(a in [P_BEGIN, P_END) : (a + 1) mod PAGE_SIZE = 0)` (R250). -/
def nPages (c : Config) : Nat :=
  ((List.range' c.pBegin (c.pEnd - c.pBegin)).filter fun a => (a + 1) % c.pageSize = 0).length

/-- The BYTE events among a list, as address and byte. -/
def byteEvents (es : List Event) : List (Addr × Byte) :=
  es.filterMap fun e => match e with
    | .byte a v => some (a, v)
    | _ => none

end Sys2Proof.Machine
end

