-- ==== Sys2Proof/Machine/Ops.lean ====
section
/-! DEFINITION. The named operations every meaning is written over: the device's storage (spec/20_memory.md R65, R66), the data lines
(R64), entering and counting down a timed state (42_sequencer.md R193), the start of a tick, and reset. The block takes no
exception and returns from none (60_exceptions.md R270, R275); "the nearest mechanism is reset", which is here. -/

namespace Sys2Proof.Machine

/-! ### The device's storage -/

/-- The canonical form: addresses strictly rising. An address not listed has no stored value, so no entry repeats what an
unlisted one holds, and equal contents are equal lists. -/
abbrev Memory.wf (m : Memory) : Prop := m.Pairwise fun x y => x.1 < y.1

/-- The byte stored at an address, if one has been. -/
def memFind : Memory → Nat → Option Byte
  | [], _ => none
  | (b, w) :: m, a => if a = b then some w else memFind m a

/-- `MemRead(addr, 1)`: the byte at `addr`; one never written holds its free initial value (R66, R35). -/
def memRead (m : Memory) (a : Nat) : Byte := (memFind m a).getD (Config.initByte a)

/-- Storing a byte in the canonical form. -/
def memInsert : Memory → Nat → Byte → Memory
  | [], a, v => [(a, v)]
  | (b, w) :: m, a, v =>
    if a < b then (a, v) :: (b, w) :: m
    else if a = b then (a, v) :: m
    else (b, w) :: memInsert m a v

/-- `MemWrite(addr, 1, v)` (R65), by a device that accepts writes; one whose writes are blocked keeps its contents (R295;
DESIGN CHOICE, notes/assumptions/14). -/
def memWrite (c : Config) (m : Memory) (a : Nat) (v : Byte) : Memory :=
  if c.devWritable then memInsert m a v else m

/-- The device address seen for a shift-register value: `SR[AW-1:0]`, that is `SR mod DEVICE_SIZE` (R62). -/
def devAddr (c : Config) (sr : Addr) : Nat := sr.toNat % c.deviceSize

/-! ### The data lines -/

/-- The data lines' value in a tick where R64 fixes one: `D_OUT` when the block alone drives them, the addressed byte when
the device does, is idle, and has had its access time. -/
def busDriven (s : State) : Option Byte :=
  if s.dir && !(!s.oeN && s.weN) then some s.dOut
  else if s.dir then none
  else if !s.oeN && s.weN && s.busy == 0 && s.accWait == 0 then some (memRead s.mem (devAddr s.cfg s.sr))
  else none

/-- The data lines' value `bus = D_IN`: the driven one, else a free value of this tick (contention, floating or not yet
valid lines; R64, U10). -/
def bus (s : State) : Byte := (busDriven s).getD (Config.freeByte s.draws)

/-- The byte READ samples: `D_IN` (R211), but a free value with `DIR = 1`, where the lines would be the block's own `D_OUT`
or in contention (R212, D41; DEDUCED, notes/assumptions/12). -/
def readSample (s : State) : Byte := if s.dir then Config.freeByte s.draws else bus s

/-! ### Timed states -/

/-- Entering a timed state with duration `t`: `DC <- t` (R193). -/
def enter (q : Seq) (t : Nat) (s : State) : State := { s with seq := q, dc := t }

/-- A tick of a timed state: `DC > 1` counts down and stays, `DC = 1` performs the exit action; no rule moves a timed state
whose `DC` is 0, and it stays as it is (R193; DESIGN CHOICE, notes/assumptions/8). -/
def timed (exit : State → State) (s : State) : State :=
  if 1 < s.dc then { s with dc := s.dc - 1 }
  else if s.dc = 1 then exit s
  else s

/-- Back to `S_IDLE`; `DC` keeps its value, as vectors Q9 and P1 show for PRESENT and READ (for the other commands
DEDUCED, notes/assumptions/23). -/
def toIdle (s : State) : State := { s with seq := .idle }

/-! ### Accepting a byte write -/

/-- WRITE's acceptance action: `D_OUT <- b; SEQ <- S_WR_SETTLE` with duration `T_SETTLE` (R206). An encoder class runs as
the controller's (R234; DEDUCED, notes/assumptions/17). -/
def acceptWrite (b : Byte) (s : State) : State := enter .wrSettle s.cfg.tSettle { s with dOut := b }

/-- A test program, not the controller, drives the port (R191). -/
def programDriven (s : State) : Bool :=
  match s.drive with
  | .controller => false
  | .program _ => true

/-- A test program's command whose bus direction precondition fails is refused by name; the controller's runs, and the
environment answers with free values (R207, R212, D41; DEDUCED, notes/assumptions/12). -/
def withDirection (ok : Bool) (r : Refusal) (s : State) (k : State → State) : Result :=
  if programDriven s && !ok then .refused r else .next (k s)

/-! ### Ticks -/

/-- The level of `RST` in this tick (R291). -/
def rstNow (s : State) : Bool := s.rst.headD false

/-- The start of a tick's update: the tick's `RST` level is used up, and `SINK_VALID` is 0 unless this tick emits (R246).
`SINK_KIND` keeps its value, for which R246 fixes none in a tick with `SINK_VALID = 0` (DESIGN CHOICE,
notes/assumptions/25). -/
def openTick (s : State) : State := { s with rst := s.rst.tail, sinkValid := false }

/-- Applying a function to the next state of a result. -/
def mapNext (f : State → State) : Result → Result
  | .next s => .next (f s)
  | .fault r => .fault r
  | .refused r => .refused r

/-- Every block register at its reset value; the configuration, the environment, the inputs and the sink's list are not
touched (R290, R291). -/
def blockReset (s : State) : State :=
  { s with
    ac := 0, ctrl := .idle, rdata := 0, seq := .idle, areg := 0, bi := 0, dc := 0,
    serData := false, serClk := false, dOut := 0, dir := false, weN := true, oeN := true,
    sinkValid := false, sinkKind := 0, sinkAddr := 0, sinkByte := 0 }

/-- A power cycle between two ticks: "every register of the block is lost" and takes its power-up value, the device's
contents persist, `SR` and `LAT_ADDR` are unspecified, `BUSY = 0`, the sink starts empty (R282, R292, R34, R36, R37).
The outside world does this; no step does (DESIGN CHOICE, notes/assumptions/19). No rule says for how long `SR` counts as
unchanged after a power cycle (R34, R64): the access wait starts anew, as if `SR` had just changed (DESIGN CHOICE,
notes/assumptions/19). -/
def powerCycle (s : State) : State :=
  { blockReset s with
    sr := Config.freeAddr s.draws, latAddr := devAddr s.cfg (Config.freeAddr (s.draws + 1)), busy := 0,
    accWait := s.cfg.tAccD - 1, pulseBad := false, draws := s.draws + 3, sink := [] }

end Sys2Proof.Machine
end

