-- ==== Sys2Proof/Machine/Environment.lean ====
section
/-! DEFINITION. The environment's response at a tick boundary (spec/20_memory.md R61 to R67; 70_reset_and_hazards.md R293): the
shift register and the device see the block's outputs change from their values in the tick (`s`) to those of the next
tick (`t`). Free values of a tick: index `draws` is the data lines' and a
sample's (Ops.lean `bus`, `readSample`), `draws + 1` and `draws + 2` are
garbled device bytes. -/

namespace Sys2Proof.Machine

/-- A rising edge of `SER_CLK` (R61). -/
def serRise (s t : State) : Bool := !s.serClk && t.serClk

/-- A falling edge of `WE_N` (R63). -/
def weFall (s t : State) : Bool := s.weN && !t.weN

/-- A rising edge of `WE_N` (R63). -/
def weRise (s t : State) : Bool := !s.weN && t.weN

/-- `{SR[14:0], SER_DATA}` (R61). -/
def shiftIn (sr : Addr) (d : Bool) : Addr := field sr 0 15 ++ BitVec.ofBool d

/-- `SR` after the boundary: `SER_DATA` as held in the tick before the edge is shifted in (R61). -/
def envSr (s t : State) : Addr := if serRise s t then shiftIn s.sr s.serData else s.sr

/-- Ticks still to wait until `SR` has been unchanged for `t_ACCD` ticks, the coming tick among them (R64;
DEDUCED, notes/assumptions/6). -/
def envWait (s t : State) : Nat := if envSr s t = s.sr then s.accWait - 1 else s.cfg.tAccD - 1

/-- `LAT_ADDR` after the boundary: latched at a falling edge of `WE_N` while `OE_N = 1` (R63), else kept
(DEDUCED, notes/assumptions/24). -/
def envLat (s t : State) : Nat := if weFall s t && s.oeN then devAddr s.cfg s.sr else s.latAddr

/-- A falling edge of `WE_N` while the device is busy (R67). -/
def fallBusy (s t : State) : Bool := weFall s t && decide (0 < s.busy)

/-- The byte a rising edge of `WE_N` stores: the data lines of the tick before the edge (R63), or a free value when the
edge is a reset's (R293), when `OE_N = 0` at it, or when the pulse began while the device was busy (R67;
DEDUCED, notes/assumptions/7). -/
def pulseByte (reset : Bool) (s : State) : Byte :=
  if reset || !s.oeN || s.pulseBad then Config.freeByte (s.draws + 1) else bus s

/-- `MEM` after the boundary (R63, R65, R67): a falling edge while busy garbles the old and the new latched address, a
rising edge writes `LAT_ADDR`. -/
def envMem (reset : Bool) (s t : State) : Memory :=
  if fallBusy s t then
    memWrite s.cfg (memWrite s.cfg s.mem s.latAddr (Config.freeByte (s.draws + 1))) (envLat s t)
      (Config.freeByte (s.draws + 2))
  else if weRise s t then memWrite s.cfg s.mem s.latAddr (pulseByte reset s)
  else s.mem

/-- `BUSY` after the boundary: `t_WC` at a rising edge of `WE_N`, else one less, down to 0 (R63). -/
def envBusy (s t : State) : Nat := if weRise s t then s.cfg.tWC else s.busy - 1

/-- Whether the write pulse in progress began in violation (R67). -/
def envBad (s t : State) : Bool := if weFall s t then fallBusy s t else s.pulseBad

/-- The next free value's index: a tick that has an open bus value, an open sample (`readSample`) or garbles a byte uses up
its three indices. -/
def envDraws (reset : Bool) (s t : State) : Nat :=
  if (busDriven s).isNone || (s.dir && s.seq == .rdWait) || fallBusy s t ||
      (weRise s t && (reset || !s.oeN || s.pulseBad)) then s.draws + 3
  else s.draws

/-- The end of a tick: `t` holds the block's registers for the next tick, and the environment answers. -/
def envStep (reset : Bool) (s t : State) : State :=
  { t with
    sr := envSr s t, accWait := envWait s t, latAddr := envLat s t, mem := envMem reset s t, busy := envBusy s t,
    pulseBad := envBad s t, draws := envDraws reset s t }

/-- A tick with `RST = 1`: every block register takes its reset value and the step of the tick is not performed; the
environment sees the outputs change, and a write in progress is garbled (R291, R293). -/
def resetTick (s : State) : State := envStep true s (blockReset (openTick s))

end Sys2Proof.Machine
end

