-- ==== Sys2Proof/Machine/Command.lean ====
section
/-! DEFINITION. The sequencer's bus commands (spec/42_sequencer.md): the meaning of each is its acceptance action (R192), taken in
a tick with `SEQ = S_IDLE`; the timed states that carry the command out, one tick a step, follow in Sequencer.lean. -/

namespace Sys2Proof.Machine

/-- `NONE`: nothing changes (R194). -/
def execCmdNone (_arg : BitVec 16) (s : State) : Result := .next s

/-- `PRESENT a`: `AREG <- a; BI <- 15; SER_DATA <- a[15]; SER_CLK <- 0; SEQ <- S_SH_SETUP` with duration `T_SU` (R201). -/
def execPresent (a : BitVec 16) (s : State) : Result :=
  .next (enter .shSetup s.cfg.tSu { s with areg := a, bi := 15, serData := a.getLsbD 15, serClk := false })

/-- `WRITE b`: `D_OUT <- b; SEQ <- S_WR_SETTLE` with duration `T_SETTLE` (R206); precondition `DIR = 1`, `OE_N = 1` (R207). -/
def execWrite (_ign b : BitVec 8) (s : State) : Result :=
  withDirection (s.dir && s.oeN) .writeDirection s (acceptWrite b)

/-- `READ`: `SEQ <- S_RD_WAIT` with duration `T_ACC` (R211); precondition `DIR = 0`, `OE_N = 0` (R212). -/
def execRead (_arg : BitVec 16) (s : State) : Result :=
  withDirection (!s.dir && !s.oeN) .readDirection s fun s => enter .rdWait s.cfg.tAcc s

/-- `TURN_READ`: `DIR <- 0`, then `S_TURN_R` for `T_TURN` ticks (R215). -/
def execTurnRead (_arg : BitVec 16) (s : State) : Result :=
  .next (enter .turnR s.cfg.tTurn { s with dir := false })

/-- `TURN_WRITE`: `OE_N <- 1`, then `S_TURN_W` for `T_TURN` ticks (R218). -/
def execTurnWrite (_arg : BitVec 16) (s : State) : Result :=
  .next (enter .turnW s.cfg.tTurn { s with oeN := true })

end Sys2Proof.Machine
end

