-- ==== Sys2Proof/Machine/ControlStore.lean ====
section
/-! DEFINITION. The control-store encoder (spec/41_controlstore_encoder.md): the byte of each decoder class (R173 to R175), the whole
function `ENC_CS` written on its own from R172, and the meaning of each class, which runs in the tick of `WRITE ENC(AC)` as
the display classes do (43_byte_fsm.md R234). -/

namespace Sys2Proof.Machine

/-- `CS.BANK0` to `CS.BANK2`: `(CW(O, C) >> (8*B)) and 0xFF` (R173). -/
def byteBank (c : Config) (b : Nat) (cyc : BitVec 3) (op : BitVec 6) : Byte := bankByte (cwAt c op cyc) b

/-- "No signal asserted", the byte of the reserved bank and of every address beyond the table (R174, R175). -/
def noSignal : Byte := 0x00#8

/-- The whole function `ENC_CS`, total over the 16-bit addresses (R172). -/
def encCs (c : Config) (a : Addr) : Byte :=
  let B := (a.toNat >>> 9) % 4
  if a.toNat ≥ 0x800 then 0#8
  else if B = 3 then 0#8
  else BitVec.ofNat 8 ((cwAt c (BitVec.ofNat 6 a.toNat) (BitVec.ofNat 3 (a.toNat >>> 6))).toNat >>> (8 * B))

/-- `CS.BANK0` (R173). -/
def execCsBank0 (cyc : BitVec 3) (op : BitVec 6) (s : State) : Result := .next (acceptWrite (byteBank s.cfg 0 cyc op) s)

/-- `CS.BANK1` (R173). -/
def execCsBank1 (cyc : BitVec 3) (op : BitVec 6) (s : State) : Result := .next (acceptWrite (byteBank s.cfg 1 cyc op) s)

/-- `CS.BANK2` (R173). -/
def execCsBank2 (cyc : BitVec 3) (op : BitVec 6) (s : State) : Result := .next (acceptWrite (byteBank s.cfg 2 cyc op) s)

/-- `CS.BANK3`: the reserved bank (R174). -/
def execCsBank3 (_cyc : BitVec 3) (_op : BitVec 6) (s : State) : Result := .next (acceptWrite noSignal s)

/-- `CS.OOR11` (R175). -/
def execCsOor11 (_rest : BitVec 11) (s : State) : Result := .next (acceptWrite noSignal s)

/-- `CS.OOR12` (R175). -/
def execCsOor12 (_rest : BitVec 12) (s : State) : Result := .next (acceptWrite noSignal s)

/-- `CS.OOR13` (R175). -/
def execCsOor13 (_rest : BitVec 13) (s : State) : Result := .next (acceptWrite noSignal s)

/-- `CS.OOR14` (R175). -/
def execCsOor14 (_rest : BitVec 14) (s : State) : Result := .next (acceptWrite noSignal s)

/-- `CS.OOR15` (R175). -/
def execCsOor15 (_rest : BitVec 15) (s : State) : Result := .next (acceptWrite noSignal s)

end Sys2Proof.Machine
end

