-- ==== Sys2Proof/Machine/Display.lean ====
section
/-! DEFINITION. The display-segment encoder (spec/40_display_encoder.md): the byte of each decoder class (R133 to R137), the whole
function `ENC_DISP` written on its own from R132, and the meaning of each class. The encoder is combinational; a class runs
in the tick the controller issues `WRITE ENC(AC)` (43_byte_fsm.md R234): its byte is the one that WRITE accepts. -/

namespace Sys2Proof.Machine

/-- `DISP.OCT`: `SEG[(V >> (3*S)) and 7]` (R133). -/
def byteOct (c : Config) (slot : BitVec 2) (v : BitVec 12) : Byte := segAt c (octDigit slot v)

/-- `DISP.DEC0`: `SEG[mag mod 10] xor (if neg then SIGN_MASK else 0x00)` (R135). -/
def byteDec0 (c : Config) (v : BitVec 12) : Byte := segAt c (decDigit 0 (magnitude v)) ^^^ signMark c (negFlag v)

/-- `DISP.DEC1` to `DISP.DEC3`: blank below `10^S`, else the digit (R136). -/
def byteDecHigh (c : Config) (slot : Nat) (v : BitVec 12) : Byte :=
  if magnitude v < 10 ^ slot then blank else segAt c (decDigit slot (magnitude v))

/-- The whole function `ENC_DISP`, total over the 16-bit addresses (R132). -/
def encDisp (c : Config) (a : Addr) : Byte :=
  let S := (a.toNat >>> 12) % 4
  let V := a.setWidth 12
  if a.toNat ≥ 0x8000 then blank
  else if a.toNat < 0x4000 then segAt c ⟨(V.toNat >>> (3 * S)) % 8, by omega⟩
  else
    let neg := decide (V.toInt < 0)
    let mag := V.toInt.natAbs
    if S = 0 then segAt c ⟨mag % 10, by omega⟩ ^^^ (if neg then c.signMask else 0#8)
    else if mag < 10 ^ S then blank
    else segAt c ⟨mag / 10 ^ S % 10, by omega⟩

/-- `DISP.OCT` (R133). -/
def execDispOct (slot : BitVec 2) (v : BitVec 12) (s : State) : Result := .next (acceptWrite (byteOct s.cfg slot v) s)

/-- `DISP.DEC0` (R135). -/
def execDispDec0 (v : BitVec 12) (s : State) : Result := .next (acceptWrite (byteDec0 s.cfg v) s)

/-- `DISP.DEC1` (R136). -/
def execDispDec1 (v : BitVec 12) (s : State) : Result := .next (acceptWrite (byteDecHigh s.cfg 1 v) s)

/-- `DISP.DEC2` (R136). -/
def execDispDec2 (v : BitVec 12) (s : State) : Result := .next (acceptWrite (byteDecHigh s.cfg 2 v) s)

/-- `DISP.DEC3` (R136). -/
def execDispDec3 (v : BitVec 12) (s : State) : Result := .next (acceptWrite (byteDecHigh s.cfg 3 v) s)

/-- `DISP.GUARD`: the blank pattern, whatever the other bits (R137). -/
def execDispGuard (_rest : BitVec 15) (s : State) : Result := .next (acceptWrite blank s)

end Sys2Proof.Machine
end

