-- ==== Sys2Proof/Machine/Controller.lean ====
section
/-! DEFINITION. The controller (spec/43_byte_fsm.md R230 to R241), and the command port it or a test program drives
(42_sequencer.md R191, D40). In `C_P_DATA` the instruction on the port is the decoder class of `AC[15:0]`, whose running is
the `WRITE ENC(AC[15:0])` of R234; `controllerWord` is the same port as a 19-bit word. -/

namespace Sys2Proof.Machine

/-- `ENC`, the encoder of the configured variant (R14, R234). -/
def enc (c : Config) (a : Addr) : Byte :=
  match c.variant with
  | .disp => encDisp c a
  | .cs => encCs c a

/-- `AC[15:0]`, the address presented (R240). -/
def acAddr (s : State) : Addr := field s.ac 0 16

/-- The instruction the controller issues: its state's command in a tick with `SEQ = S_IDLE` (R232 to R239, R241), NONE in
every other tick (R194, R231). -/
def controllerCommand (s : State) : Instr :=
  if s.seq ≠ .idle then .cmdNone 0
  else match s.ctrl with
  | .idle => .turnWrite 0
  | .pAddr => if s.ac.toNat < s.cfg.pEnd then .present (acAddr s) else .turnRead 0
  | .pData => decodeAddr s.cfg.variant (acAddr s)
  | .pDone => .cmdNone 0
  | .vAddr => if s.ac.toNat < s.cfg.vEnd then .present (acAddr s) else .cmdNone 0
  | .vRead => .read 0
  | .vEmit => .cmdNone 0
  | .done => .cmdNone 0

/-- The command word the controller drives in every tick (R191): the table of R241 with `SEQ = S_IDLE`, NONE otherwise (R194,
R231). -/
def controllerWord (s : State) : CmdWord :=
  if s.seq ≠ .idle then 0#3 ++ 0#16
  else match s.ctrl with
  | .idle => 5#3 ++ 0#16
  | .pAddr => if s.ac.toNat < s.cfg.pEnd then 1#3 ++ acAddr s else 4#3 ++ 0#16
  | .pData => 2#3 ++ 0#8 ++ enc s.cfg (acAddr s)
  | .pDone => 0#3 ++ 0#16
  | .vAddr => if s.ac.toNat < s.cfg.vEnd then 1#3 ++ acAddr s else 0#3 ++ 0#16
  | .vRead => 3#3 ++ 0#16
  | .vEmit => 0#3 ++ 0#16
  | .done => 0#3 ++ 0#16

/-- The controller's own update in a tick with `SEQ = S_IDLE`: `CTRL`, `AC` and at most one event (R232 to R239). -/
def controllerNext (s : State) : State :=
  match s.ctrl with
  | .idle => emit .start { s with ac := BitVec.ofNat 17 s.cfg.pBegin, ctrl := .pAddr }
  | .pAddr =>
    if s.ac.toNat < s.cfg.pEnd then { s with ctrl := .pData }
    else emit .finish { s with ac := BitVec.ofNat 17 s.cfg.vBegin, ctrl := .vAddr }
  | .pData => { s with ctrl := .pDone }
  | .pDone =>
    if (s.ac.toNat + 1) % s.cfg.pageSize = 0 then emit .page { s with ac := s.ac + 1, ctrl := .pAddr }
    else { s with ac := s.ac + 1, ctrl := .pAddr }
  | .vAddr => if s.ac.toNat < s.cfg.vEnd then { s with ctrl := .vRead } else { s with ctrl := .done }
  | .vRead => { s with ctrl := .vEmit }
  | .vEmit => emit (.byte (acAddr s) s.rdata) { s with ac := s.ac + 1, ctrl := .vAddr }
  | .done => s

/-- What the port carries: the controller's command, or, in a tick with `SEQ = S_IDLE`, the next word of a test program; a
program at its end leaves NONE there (R191; DESIGN CHOICE, notes/assumptions/9). -/
def portDecoded (s : State) : Decoded :=
  match s.drive with
  | .controller => .instr (controllerCommand s)
  | .program [] => .instr (.cmdNone 0)
  | .program (w :: _) => decodeCmd w

/-- The driver's own update in a tick with `SEQ = S_IDLE`: the controller's, or the program's word is used up and
the controller is not stepped (R191). -/
def portAdvance (s : State) : State :=
  match s.drive with
  | .controller => controllerNext s
  | .program ws => { s with drive := .program ws.tail }

/-- The state an instruction accepted in this tick runs on: the tick opened and the driver advanced. -/
def acceptState (s : State) : State := portAdvance (openTick s)

end Sys2Proof.Machine
end

