-- ==== Sys2Proof/Machine/Sequencer.lean ====
section
/-! DEFINITION. The sequencer's timed states (spec/42_sequencer.md R193, R201, R206, R211, R215, R218): what a tick with
`SEQ != S_IDLE` does, one exit action a state, and the durations of the commands (R221). -/

namespace Sys2Proof.Machine

/-- Exit of `S_SH_SETUP`: `SER_CLK <- 1`, then `S_SH_HIGH` for `T_HI` ticks (R201). -/
def exitShSetup (s : State) : State := enter .shHigh s.cfg.tHi { s with serClk := true }

/-- Exit of `S_SH_HIGH`: `SER_CLK <- 0`, then the next lower address bit, or idle after bit 0 (R201). -/
def exitShHigh (s : State) : State :=
  if 0 < s.bi.toNat then
    enter .shSetup s.cfg.tSu
      { s with serClk := false, bi := s.bi - 1, serData := s.areg.getLsbD (s.bi.toNat - 1) }
  else toIdle { s with serClk := false }

/-- Exit of `S_WR_SETTLE`: `WE_N <- 0`, then `S_WR_LOW` for `T_WE` ticks (R206). -/
def exitWrSettle (s : State) : State := enter .wrLow s.cfg.tWe { s with weN := false }

/-- Exit of `S_WR_LOW`: `WE_N <- 1`, then `S_WR_HOLD` for `T_HOLD` ticks (R206). -/
def exitWrLow (s : State) : State := enter .wrHold s.cfg.tHold { s with weN := true }

/-- Exit of `S_WR_HOLD`: idle (R206). -/
def exitWrHold (s : State) : State := toIdle s

/-- Exit of `S_RD_WAIT`: `RDATA` takes the sample of the tick of the exit, `D_IN` or in a wrong direction a free value, then
idle (R211, R212). -/
def exitRdWait (sample : Byte) (s : State) : State := toIdle { s with rdata := sample }

/-- Exit of `S_TURN_R`: `OE_N <- 0`, then idle (R215). -/
def exitTurnR (s : State) : State := toIdle { s with oeN := false }

/-- Exit of `S_TURN_W`: `DIR <- 1`, then idle (R218). -/
def exitTurnW (s : State) : State := toIdle { s with dir := true }

/-- The sequencer's step in a tick, with the byte a READ samples in it (R192, R193). -/
def seqStep (sample : Byte) (s : State) : State :=
  match s.seq with
  | .idle => s
  | .shSetup => timed exitShSetup s
  | .shHigh => timed exitShHigh s
  | .wrSettle => timed exitWrSettle s
  | .wrLow => timed exitWrLow s
  | .wrHold => timed exitWrHold s
  | .rdWait => timed (exitRdWait sample) s
  | .turnR => timed exitTurnR s
  | .turnW => timed exitTurnW s

/-- A tick with `SEQ != S_IDLE`: the sequencer steps, the port is not read, the controller changes nothing (R192, R231). -/
def busyTick (s : State) : State := envStep false s (seqStep (readSample s) (openTick s))

/-! ### Durations (R221, R242, R316) -/

/-- PRESENT: `1 + 16*(T_SU + T_HI)` ticks (R202). -/
def presentTicks (c : Config) : Nat := 1 + 16 * (c.tSu + c.tHi)

/-- WRITE: `1 + T_SETTLE + T_WE + T_HOLD` ticks (R206). -/
def writeTicks (c : Config) : Nat := 1 + c.tSettle + c.tWe + c.tHold

/-- READ: `1 + T_ACC` ticks (R211). -/
def readTicks (c : Config) : Nat := 1 + c.tAcc

/-- TURN_READ and TURN_WRITE: `1 + T_TURN` ticks (R215, R218). -/
def turnTicks (c : Config) : Nat := 1 + c.tTurn

/-- Ticks of one programmed address, `TP` (R242). -/
def programTicks (c : Config) : Nat := 3 + 16 * (c.tSu + c.tHi) + c.tSettle + c.tWe + c.tHold

/-- Ticks of one verified address, `TV` (R242). -/
def verifyTicks (c : Config) : Nat := 3 + 16 * (c.tSu + c.tHi) + c.tAcc

/-- Ticks of a whole run, from the first tick after reset to `C_DONE` (R242). -/
def runTicks (c : Config) : Nat :=
  (1 + c.tTurn) + (c.pEnd - c.pBegin) * programTicks c + (1 + c.tTurn) + (c.vEnd - c.vBegin) * verifyTicks c + 1

end Sys2Proof.Machine
end

