-- ==== Sys2Proof/Machine/Dispatch.lean ====
section
/-! DEFINITION. The dispatch of every instruction to its meaning: one arm per row of spec/opcode_table.json. -/

namespace Sys2Proof.Machine

-- The meaning of an instruction accepted in a tick.
def exec (i : Instr) (s : State) : Host.Outcome State Fault Refusal :=
  match i with
  | .dispOct slot v => Sys2Proof.Machine.execDispOct slot v s
  | .dispDec0 v => Sys2Proof.Machine.execDispDec0 v s
  | .dispDec1 v => Sys2Proof.Machine.execDispDec1 v s
  | .dispDec2 v => Sys2Proof.Machine.execDispDec2 v s
  | .dispDec3 v => Sys2Proof.Machine.execDispDec3 v s
  | .dispGuard rest => Sys2Proof.Machine.execDispGuard rest s
  | .csBank0 c o => Sys2Proof.Machine.execCsBank0 c o s
  | .csBank1 c o => Sys2Proof.Machine.execCsBank1 c o s
  | .csBank2 c o => Sys2Proof.Machine.execCsBank2 c o s
  | .csBank3 c o => Sys2Proof.Machine.execCsBank3 c o s
  | .csOor11 rest => Sys2Proof.Machine.execCsOor11 rest s
  | .csOor12 rest => Sys2Proof.Machine.execCsOor12 rest s
  | .csOor13 rest => Sys2Proof.Machine.execCsOor13 rest s
  | .csOor14 rest => Sys2Proof.Machine.execCsOor14 rest s
  | .csOor15 rest => Sys2Proof.Machine.execCsOor15 rest s
  | .cmdNone arg => Sys2Proof.Machine.execCmdNone arg s
  | .present a => Sys2Proof.Machine.execPresent a s
  | .write ign b => Sys2Proof.Machine.execWrite ign b s
  | .read arg => Sys2Proof.Machine.execRead arg s
  | .turnRead arg => Sys2Proof.Machine.execTurnRead arg s
  | .turnWrite arg => Sys2Proof.Machine.execTurnWrite arg s

end Sys2Proof.Machine
end

