-- ==== Sys2Proof/Machine/Step.lean ====
section
/-! DEFINITION. The step of the machine: one tick of `CLK` (spec/10_state.md R20), and how the host places one instruction to be run. -/

namespace Sys2Proof.Machine

/-- One tick. A configuration that breaks R310 is refused (R283); with `RST = 1` the tick resets (R291); with
`SEQ = S_IDLE` the instruction on the port is decoded and accepted (R192); otherwise the sequencer's timed state steps. At
the end of the tick the environment answers. -/
def step (s : State) : Host.Outcome State Fault Refusal :=
  if configValid s.cfg = false then .refused .configuration
  else if rstNow s then .next (resetTick s)
  else if s.seq = .idle then
    match portDecoded s with
    | .instr i => mapNext (envStep false s) (exec i (acceptState s))
    | .reservedCommand k => .refused (.reservedCommand k)
  else .next (busyTick s)

/-- `s` with an instruction's word where the next step fetches it (notes/assumptions/11). A 16-bit word is an address: the
controller is in `C_P_DATA` with `AC` at it, in the build `tableVariant` reads it under. Any other word is the one word of a
test program. The sequencer is idle and `RST` released, so the next step accepts it. -/
def State.withFetchWord (s : State) (nbits w : Nat) : State :=
  if nbits = 16 then
    { s with
      cfg := { s.cfg with variant := tableVariant w }, drive := .controller, ctrl := .pData,
      ac := BitVec.ofNat 17 (w % 65536), seq := .idle, rst := [] }
  else { s with drive := .program [BitVec.ofNat 19 w], seq := .idle, rst := [] }

end Sys2Proof.Machine
end

