-- ==== Sys2Proof/Safety.lean ====
section
/-! DEFINITION. What counts as a safe run, in the terms claims use: the invariant of every tick (the hazards R301 to R307 of
spec/70_reset_and_hazards.md guaranteed by structure, the ranges of the registers, the canonical form of the device's
storage), the block at reset, what an observer who never sees the device's data can see, and runs of many ticks. Each part
of the invariant is decidable. -/

namespace Sys2Proof.Machine

/-- `n` ticks. -/
abbrev runFor (n : Nat) (s : State) : Result := Host.Core.run Sys2Proof.core n s

/-- The device's storage is in its canonical form and inside the device; the latched address is (R35, R36, R65). -/
abbrev InvDevice (s : State) : Prop :=
  Memory.wf s.mem ∧ (∀ x ∈ s.mem, x.1 < s.cfg.deviceSize) ∧ s.latAddr < s.cfg.deviceSize

/-- The environment's counters are in range, and no write pulse in progress began in violation (R36, R64, R67). -/
abbrev InvCounters (s : State) : Prop :=
  s.busy ≤ s.cfg.tWC ∧ s.accWait ≤ s.cfg.tAccD - 1 ∧ s.pulseBad = false

/-- `WE_N` is low in `S_WR_LOW` only and `SER_CLK` high in `S_SH_HIGH` only (R201, R206, R302). -/
abbrev InvEdges (s : State) : Prop :=
  (s.weN = false ↔ s.seq = .wrLow) ∧ (s.serClk = true ↔ s.seq = .shHigh)

/-- The delay counter fits in `DW` bits and a timed state has at least its current tick left (R28, R193). -/
abbrev InvTimer (s : State) : Prop :=
  s.dc < 2 ^ cfgDw s.cfg ∧ (s.seq ≠ .idle → 1 ≤ s.dc)

/-- The block and the device never drive the lines together, and turnaround keeps it so (R301, R215, R218). -/
abbrev InvBus (s : State) : Prop :=
  (s.dir = true → s.oeN = true) ∧ (s.seq = .turnR → s.dir = false) ∧ (s.seq = .turnW → s.oeN = true)

/-- A write pulse has the lines driven and starts after the device's last write cycle has ended (R303 to R305). -/
abbrev InvWrite (s : State) : Prop :=
  (s.seq = .wrSettle → s.dir = true ∧ s.oeN = true ∧ s.busy < s.dc) ∧
  (s.seq = .wrLow → s.dir = true ∧ s.oeN = true ∧ s.busy = 0) ∧
  (s.seq = .wrHold → s.dir = true ∧ s.oeN = true)

/-- A read sees an idle device whose address has settled by the sample (R306, R307). -/
abbrev InvRead (s : State) : Prop :=
  (s.seq = .turnR → s.busy < s.dc) ∧ (s.oeN = false → s.busy = 0) ∧
  (s.seq = .rdWait → s.dir = false ∧ s.oeN = false ∧ s.accWait < s.dc)

/-- `AC` stays inside the range being swept, so its 17 bits never wrap (R22, R240). -/
abbrev InvSweep (s : State) : Prop :=
  (s.ctrl = .pAddr → s.ac.toNat ≤ s.cfg.pEnd) ∧
  (s.ctrl = .pData ∨ s.ctrl = .pDone → s.ac.toNat < s.cfg.pEnd) ∧
  (s.ctrl = .vAddr → s.ac.toNat ≤ s.cfg.vEnd) ∧
  (s.ctrl = .vRead ∨ s.ctrl = .vEmit → s.ac.toNat < s.cfg.vEnd)

/-- Which sequencer states go with Idle and the Programming states, and their bus direction (R231, R241). -/
abbrev InvProgramming (s : State) : Prop :=
  (s.ctrl = .idle → s.seq = .idle) ∧
  (s.ctrl = .pAddr → s.seq = .turnW ∨ (s.seq = .idle ∧ s.dir = true ∧ s.oeN = true)) ∧
  (s.ctrl = .pData → (s.seq = .shSetup ∨ s.seq = .shHigh ∨ s.seq = .idle) ∧ s.dir = true ∧ s.oeN = true) ∧
  (s.ctrl = .pDone →
    (s.seq = .wrSettle ∨ s.seq = .wrLow ∨ s.seq = .wrHold ∨ s.seq = .idle) ∧ s.dir = true ∧ s.oeN = true)

/-- The same of the Verifying states and Done (R231, R241). -/
abbrev InvVerifying (s : State) : Prop :=
  (s.ctrl = .vAddr → s.seq = .turnR ∨ (s.seq = .idle ∧ s.dir = false ∧ s.oeN = false)) ∧
  (s.ctrl = .vRead → (s.seq = .shSetup ∨ s.seq = .shHigh ∨ s.seq = .idle) ∧ s.dir = false ∧ s.oeN = false) ∧
  (s.ctrl = .vEmit → (s.seq = .rdWait ∨ s.seq = .idle) ∧ s.dir = false ∧ s.oeN = false) ∧
  (s.ctrl = .done → s.seq = .idle ∧ s.dir = false ∧ s.oeN = false)

/-- The invariant of every tick, under a configuration R310 accepts; the last three parts are the controller's, so they are
asked only while it drives the port. -/
abbrev Inv (s : State) : Prop :=
  configValid s.cfg = true ∧ InvDevice s ∧ InvCounters s ∧ InvEdges s ∧ InvTimer s ∧ InvBus s ∧ InvWrite s ∧ InvRead s ∧
  (s.drive = .controller → InvSweep s ∧ InvProgramming s ∧ InvVerifying s)

/-- Every block register holds its reset value (R290). -/
abbrev BlockAtReset (s : State) : Prop :=
  s.ac = 0 ∧ s.ctrl = .idle ∧ s.rdata = 0 ∧ s.seq = .idle ∧ s.areg = 0 ∧ s.bi = 0 ∧ s.dc = 0 ∧
  s.serData = false ∧ s.serClk = false ∧ s.dOut = 0 ∧ s.dir = false ∧ s.weN = true ∧ s.oeN = true ∧
  s.sinkValid = false ∧ s.sinkKind = 0 ∧ s.sinkAddr = 0 ∧ s.sinkByte = 0

/-- The start of a run: the block at reset, `RST` released and staying so, the controller driving, a configuration R310
accepts, a device that takes writes and whose counters are in range, and nothing yet at the sink. `SR`, `MEM` and
`LAT_ADDR` are whatever they are (R34 to R36, R294). -/
abbrev RunStart (s : State) : Prop :=
  BlockAtReset s ∧ s.rst = [] ∧ s.drive = .controller ∧ configValid s.cfg = true ∧ s.cfg.devWritable = true ∧
  InvDevice s ∧ InvCounters s ∧ s.sink = []

/-- A tick in which the instruction `i` is accepted: a configuration R310 accepts, no reset now or later, the sequencer
idle, and `i` on the port (R192). -/
abbrev Accepts (s : State) (i : Instr) : Prop :=
  configValid s.cfg = true ∧ s.rst = [] ∧ s.seq = .idle ∧ portDecoded s = .instr i

/-- What of the block does not come from the device's data: every register but `RDATA` and `SINK_BYTE`, and the inputs
(R244). -/
def controlView (s : State) : State :=
  { s with
    rdata := 0, sinkByte := 0, sr := 0, mem := [], latAddr := 0, busy := 0, accWait := 0, pulseBad := false, draws := 0,
    sink := [] }

end Sys2Proof.Machine
end

