-- ==== Sys2Proof/Laws/State.lean ====
section
/-! SUPPORT. One lemma per field of State per shared update, each true by `rfl`, so that no later proof unfolds a record
update. -/

namespace Sys2Proof.Machine

/-! ### `enter` -/

@[simp] theorem enter_cfg (q : Seq) (n : Nat) (s : State) : (enter q n s).cfg = s.cfg := rfl
@[simp] theorem enter_ac (q : Seq) (n : Nat) (s : State) : (enter q n s).ac = s.ac := rfl
@[simp] theorem enter_ctrl (q : Seq) (n : Nat) (s : State) : (enter q n s).ctrl = s.ctrl := rfl
@[simp] theorem enter_rdata (q : Seq) (n : Nat) (s : State) : (enter q n s).rdata = s.rdata := rfl
@[simp] theorem enter_seq (q : Seq) (n : Nat) (s : State) : (enter q n s).seq = q := rfl
@[simp] theorem enter_areg (q : Seq) (n : Nat) (s : State) : (enter q n s).areg = s.areg := rfl
@[simp] theorem enter_bi (q : Seq) (n : Nat) (s : State) : (enter q n s).bi = s.bi := rfl
@[simp] theorem enter_dc (q : Seq) (n : Nat) (s : State) : (enter q n s).dc = n := rfl
@[simp] theorem enter_serData (q : Seq) (n : Nat) (s : State) : (enter q n s).serData = s.serData := rfl
@[simp] theorem enter_serClk (q : Seq) (n : Nat) (s : State) : (enter q n s).serClk = s.serClk := rfl
@[simp] theorem enter_dOut (q : Seq) (n : Nat) (s : State) : (enter q n s).dOut = s.dOut := rfl
@[simp] theorem enter_dir (q : Seq) (n : Nat) (s : State) : (enter q n s).dir = s.dir := rfl
@[simp] theorem enter_weN (q : Seq) (n : Nat) (s : State) : (enter q n s).weN = s.weN := rfl
@[simp] theorem enter_oeN (q : Seq) (n : Nat) (s : State) : (enter q n s).oeN = s.oeN := rfl
@[simp] theorem enter_sinkValid (q : Seq) (n : Nat) (s : State) : (enter q n s).sinkValid = s.sinkValid := rfl
@[simp] theorem enter_sinkKind (q : Seq) (n : Nat) (s : State) : (enter q n s).sinkKind = s.sinkKind := rfl
@[simp] theorem enter_sinkAddr (q : Seq) (n : Nat) (s : State) : (enter q n s).sinkAddr = s.sinkAddr := rfl
@[simp] theorem enter_sinkByte (q : Seq) (n : Nat) (s : State) : (enter q n s).sinkByte = s.sinkByte := rfl
@[simp] theorem enter_rst (q : Seq) (n : Nat) (s : State) : (enter q n s).rst = s.rst := rfl
@[simp] theorem enter_drive (q : Seq) (n : Nat) (s : State) : (enter q n s).drive = s.drive := rfl
@[simp] theorem enter_sr (q : Seq) (n : Nat) (s : State) : (enter q n s).sr = s.sr := rfl
@[simp] theorem enter_mem (q : Seq) (n : Nat) (s : State) : (enter q n s).mem = s.mem := rfl
@[simp] theorem enter_latAddr (q : Seq) (n : Nat) (s : State) : (enter q n s).latAddr = s.latAddr := rfl
@[simp] theorem enter_busy (q : Seq) (n : Nat) (s : State) : (enter q n s).busy = s.busy := rfl
@[simp] theorem enter_accWait (q : Seq) (n : Nat) (s : State) : (enter q n s).accWait = s.accWait := rfl
@[simp] theorem enter_pulseBad (q : Seq) (n : Nat) (s : State) : (enter q n s).pulseBad = s.pulseBad := rfl
@[simp] theorem enter_draws (q : Seq) (n : Nat) (s : State) : (enter q n s).draws = s.draws := rfl
@[simp] theorem enter_sink (q : Seq) (n : Nat) (s : State) : (enter q n s).sink = s.sink := rfl

/-! ### `toIdle` -/

@[simp] theorem toIdle_cfg (s : State) : (toIdle s).cfg = s.cfg := rfl
@[simp] theorem toIdle_ac (s : State) : (toIdle s).ac = s.ac := rfl
@[simp] theorem toIdle_ctrl (s : State) : (toIdle s).ctrl = s.ctrl := rfl
@[simp] theorem toIdle_rdata (s : State) : (toIdle s).rdata = s.rdata := rfl
@[simp] theorem toIdle_seq (s : State) : (toIdle s).seq = .idle := rfl
@[simp] theorem toIdle_areg (s : State) : (toIdle s).areg = s.areg := rfl
@[simp] theorem toIdle_bi (s : State) : (toIdle s).bi = s.bi := rfl
@[simp] theorem toIdle_dc (s : State) : (toIdle s).dc = s.dc := rfl
@[simp] theorem toIdle_serData (s : State) : (toIdle s).serData = s.serData := rfl
@[simp] theorem toIdle_serClk (s : State) : (toIdle s).serClk = s.serClk := rfl
@[simp] theorem toIdle_dOut (s : State) : (toIdle s).dOut = s.dOut := rfl
@[simp] theorem toIdle_dir (s : State) : (toIdle s).dir = s.dir := rfl
@[simp] theorem toIdle_weN (s : State) : (toIdle s).weN = s.weN := rfl
@[simp] theorem toIdle_oeN (s : State) : (toIdle s).oeN = s.oeN := rfl
@[simp] theorem toIdle_sinkValid (s : State) : (toIdle s).sinkValid = s.sinkValid := rfl
@[simp] theorem toIdle_sinkKind (s : State) : (toIdle s).sinkKind = s.sinkKind := rfl
@[simp] theorem toIdle_sinkAddr (s : State) : (toIdle s).sinkAddr = s.sinkAddr := rfl
@[simp] theorem toIdle_sinkByte (s : State) : (toIdle s).sinkByte = s.sinkByte := rfl
@[simp] theorem toIdle_rst (s : State) : (toIdle s).rst = s.rst := rfl
@[simp] theorem toIdle_drive (s : State) : (toIdle s).drive = s.drive := rfl
@[simp] theorem toIdle_sr (s : State) : (toIdle s).sr = s.sr := rfl
@[simp] theorem toIdle_mem (s : State) : (toIdle s).mem = s.mem := rfl
@[simp] theorem toIdle_latAddr (s : State) : (toIdle s).latAddr = s.latAddr := rfl
@[simp] theorem toIdle_busy (s : State) : (toIdle s).busy = s.busy := rfl
@[simp] theorem toIdle_accWait (s : State) : (toIdle s).accWait = s.accWait := rfl
@[simp] theorem toIdle_pulseBad (s : State) : (toIdle s).pulseBad = s.pulseBad := rfl
@[simp] theorem toIdle_draws (s : State) : (toIdle s).draws = s.draws := rfl
@[simp] theorem toIdle_sink (s : State) : (toIdle s).sink = s.sink := rfl

/-! ### `acceptWrite` -/

@[simp] theorem acceptWrite_cfg (b : Byte) (s : State) : (acceptWrite b s).cfg = s.cfg := rfl
@[simp] theorem acceptWrite_ac (b : Byte) (s : State) : (acceptWrite b s).ac = s.ac := rfl
@[simp] theorem acceptWrite_ctrl (b : Byte) (s : State) : (acceptWrite b s).ctrl = s.ctrl := rfl
@[simp] theorem acceptWrite_rdata (b : Byte) (s : State) : (acceptWrite b s).rdata = s.rdata := rfl
@[simp] theorem acceptWrite_seq (b : Byte) (s : State) : (acceptWrite b s).seq = .wrSettle := rfl
@[simp] theorem acceptWrite_areg (b : Byte) (s : State) : (acceptWrite b s).areg = s.areg := rfl
@[simp] theorem acceptWrite_bi (b : Byte) (s : State) : (acceptWrite b s).bi = s.bi := rfl
@[simp] theorem acceptWrite_dc (b : Byte) (s : State) : (acceptWrite b s).dc = s.cfg.tSettle := rfl
@[simp] theorem acceptWrite_serData (b : Byte) (s : State) : (acceptWrite b s).serData = s.serData := rfl
@[simp] theorem acceptWrite_serClk (b : Byte) (s : State) : (acceptWrite b s).serClk = s.serClk := rfl
@[simp] theorem acceptWrite_dOut (b : Byte) (s : State) : (acceptWrite b s).dOut = b := rfl
@[simp] theorem acceptWrite_dir (b : Byte) (s : State) : (acceptWrite b s).dir = s.dir := rfl
@[simp] theorem acceptWrite_weN (b : Byte) (s : State) : (acceptWrite b s).weN = s.weN := rfl
@[simp] theorem acceptWrite_oeN (b : Byte) (s : State) : (acceptWrite b s).oeN = s.oeN := rfl
@[simp] theorem acceptWrite_sinkValid (b : Byte) (s : State) : (acceptWrite b s).sinkValid = s.sinkValid := rfl
@[simp] theorem acceptWrite_sinkKind (b : Byte) (s : State) : (acceptWrite b s).sinkKind = s.sinkKind := rfl
@[simp] theorem acceptWrite_sinkAddr (b : Byte) (s : State) : (acceptWrite b s).sinkAddr = s.sinkAddr := rfl
@[simp] theorem acceptWrite_sinkByte (b : Byte) (s : State) : (acceptWrite b s).sinkByte = s.sinkByte := rfl
@[simp] theorem acceptWrite_rst (b : Byte) (s : State) : (acceptWrite b s).rst = s.rst := rfl
@[simp] theorem acceptWrite_drive (b : Byte) (s : State) : (acceptWrite b s).drive = s.drive := rfl
@[simp] theorem acceptWrite_sr (b : Byte) (s : State) : (acceptWrite b s).sr = s.sr := rfl
@[simp] theorem acceptWrite_mem (b : Byte) (s : State) : (acceptWrite b s).mem = s.mem := rfl
@[simp] theorem acceptWrite_latAddr (b : Byte) (s : State) : (acceptWrite b s).latAddr = s.latAddr := rfl
@[simp] theorem acceptWrite_busy (b : Byte) (s : State) : (acceptWrite b s).busy = s.busy := rfl
@[simp] theorem acceptWrite_accWait (b : Byte) (s : State) : (acceptWrite b s).accWait = s.accWait := rfl
@[simp] theorem acceptWrite_pulseBad (b : Byte) (s : State) : (acceptWrite b s).pulseBad = s.pulseBad := rfl
@[simp] theorem acceptWrite_draws (b : Byte) (s : State) : (acceptWrite b s).draws = s.draws := rfl
@[simp] theorem acceptWrite_sink (b : Byte) (s : State) : (acceptWrite b s).sink = s.sink := rfl

/-! ### `openTick` -/

@[simp] theorem openTick_cfg (s : State) : (openTick s).cfg = s.cfg := rfl
@[simp] theorem openTick_ac (s : State) : (openTick s).ac = s.ac := rfl
@[simp] theorem openTick_ctrl (s : State) : (openTick s).ctrl = s.ctrl := rfl
@[simp] theorem openTick_rdata (s : State) : (openTick s).rdata = s.rdata := rfl
@[simp] theorem openTick_seq (s : State) : (openTick s).seq = s.seq := rfl
@[simp] theorem openTick_areg (s : State) : (openTick s).areg = s.areg := rfl
@[simp] theorem openTick_bi (s : State) : (openTick s).bi = s.bi := rfl
@[simp] theorem openTick_dc (s : State) : (openTick s).dc = s.dc := rfl
@[simp] theorem openTick_serData (s : State) : (openTick s).serData = s.serData := rfl
@[simp] theorem openTick_serClk (s : State) : (openTick s).serClk = s.serClk := rfl
@[simp] theorem openTick_dOut (s : State) : (openTick s).dOut = s.dOut := rfl
@[simp] theorem openTick_dir (s : State) : (openTick s).dir = s.dir := rfl
@[simp] theorem openTick_weN (s : State) : (openTick s).weN = s.weN := rfl
@[simp] theorem openTick_oeN (s : State) : (openTick s).oeN = s.oeN := rfl
@[simp] theorem openTick_sinkValid (s : State) : (openTick s).sinkValid = false := rfl
@[simp] theorem openTick_sinkKind (s : State) : (openTick s).sinkKind = s.sinkKind := rfl
@[simp] theorem openTick_sinkAddr (s : State) : (openTick s).sinkAddr = s.sinkAddr := rfl
@[simp] theorem openTick_sinkByte (s : State) : (openTick s).sinkByte = s.sinkByte := rfl
@[simp] theorem openTick_rst (s : State) : (openTick s).rst = s.rst.tail := rfl
@[simp] theorem openTick_drive (s : State) : (openTick s).drive = s.drive := rfl
@[simp] theorem openTick_sr (s : State) : (openTick s).sr = s.sr := rfl
@[simp] theorem openTick_mem (s : State) : (openTick s).mem = s.mem := rfl
@[simp] theorem openTick_latAddr (s : State) : (openTick s).latAddr = s.latAddr := rfl
@[simp] theorem openTick_busy (s : State) : (openTick s).busy = s.busy := rfl
@[simp] theorem openTick_accWait (s : State) : (openTick s).accWait = s.accWait := rfl
@[simp] theorem openTick_pulseBad (s : State) : (openTick s).pulseBad = s.pulseBad := rfl
@[simp] theorem openTick_draws (s : State) : (openTick s).draws = s.draws := rfl
@[simp] theorem openTick_sink (s : State) : (openTick s).sink = s.sink := rfl

/-! ### `blockReset` -/

@[simp] theorem blockReset_cfg (s : State) : (blockReset s).cfg = s.cfg := rfl
@[simp] theorem blockReset_ac (s : State) : (blockReset s).ac = 0 := rfl
@[simp] theorem blockReset_ctrl (s : State) : (blockReset s).ctrl = .idle := rfl
@[simp] theorem blockReset_rdata (s : State) : (blockReset s).rdata = 0 := rfl
@[simp] theorem blockReset_seq (s : State) : (blockReset s).seq = .idle := rfl
@[simp] theorem blockReset_areg (s : State) : (blockReset s).areg = 0 := rfl
@[simp] theorem blockReset_bi (s : State) : (blockReset s).bi = 0 := rfl
@[simp] theorem blockReset_dc (s : State) : (blockReset s).dc = 0 := rfl
@[simp] theorem blockReset_serData (s : State) : (blockReset s).serData = false := rfl
@[simp] theorem blockReset_serClk (s : State) : (blockReset s).serClk = false := rfl
@[simp] theorem blockReset_dOut (s : State) : (blockReset s).dOut = 0 := rfl
@[simp] theorem blockReset_dir (s : State) : (blockReset s).dir = false := rfl
@[simp] theorem blockReset_weN (s : State) : (blockReset s).weN = true := rfl
@[simp] theorem blockReset_oeN (s : State) : (blockReset s).oeN = true := rfl
@[simp] theorem blockReset_sinkValid (s : State) : (blockReset s).sinkValid = false := rfl
@[simp] theorem blockReset_sinkKind (s : State) : (blockReset s).sinkKind = 0 := rfl
@[simp] theorem blockReset_sinkAddr (s : State) : (blockReset s).sinkAddr = 0 := rfl
@[simp] theorem blockReset_sinkByte (s : State) : (blockReset s).sinkByte = 0 := rfl
@[simp] theorem blockReset_rst (s : State) : (blockReset s).rst = s.rst := rfl
@[simp] theorem blockReset_drive (s : State) : (blockReset s).drive = s.drive := rfl
@[simp] theorem blockReset_sr (s : State) : (blockReset s).sr = s.sr := rfl
@[simp] theorem blockReset_mem (s : State) : (blockReset s).mem = s.mem := rfl
@[simp] theorem blockReset_latAddr (s : State) : (blockReset s).latAddr = s.latAddr := rfl
@[simp] theorem blockReset_busy (s : State) : (blockReset s).busy = s.busy := rfl
@[simp] theorem blockReset_accWait (s : State) : (blockReset s).accWait = s.accWait := rfl
@[simp] theorem blockReset_pulseBad (s : State) : (blockReset s).pulseBad = s.pulseBad := rfl
@[simp] theorem blockReset_draws (s : State) : (blockReset s).draws = s.draws := rfl
@[simp] theorem blockReset_sink (s : State) : (blockReset s).sink = s.sink := rfl

/-! ### `envStep` -/

@[simp] theorem envStep_cfg (r : Bool) (s t : State) : (envStep r s t).cfg = t.cfg := rfl
@[simp] theorem envStep_ac (r : Bool) (s t : State) : (envStep r s t).ac = t.ac := rfl
@[simp] theorem envStep_ctrl (r : Bool) (s t : State) : (envStep r s t).ctrl = t.ctrl := rfl
@[simp] theorem envStep_rdata (r : Bool) (s t : State) : (envStep r s t).rdata = t.rdata := rfl
@[simp] theorem envStep_seq (r : Bool) (s t : State) : (envStep r s t).seq = t.seq := rfl
@[simp] theorem envStep_areg (r : Bool) (s t : State) : (envStep r s t).areg = t.areg := rfl
@[simp] theorem envStep_bi (r : Bool) (s t : State) : (envStep r s t).bi = t.bi := rfl
@[simp] theorem envStep_dc (r : Bool) (s t : State) : (envStep r s t).dc = t.dc := rfl
@[simp] theorem envStep_serData (r : Bool) (s t : State) : (envStep r s t).serData = t.serData := rfl
@[simp] theorem envStep_serClk (r : Bool) (s t : State) : (envStep r s t).serClk = t.serClk := rfl
@[simp] theorem envStep_dOut (r : Bool) (s t : State) : (envStep r s t).dOut = t.dOut := rfl
@[simp] theorem envStep_dir (r : Bool) (s t : State) : (envStep r s t).dir = t.dir := rfl
@[simp] theorem envStep_weN (r : Bool) (s t : State) : (envStep r s t).weN = t.weN := rfl
@[simp] theorem envStep_oeN (r : Bool) (s t : State) : (envStep r s t).oeN = t.oeN := rfl
@[simp] theorem envStep_sinkValid (r : Bool) (s t : State) : (envStep r s t).sinkValid = t.sinkValid := rfl
@[simp] theorem envStep_sinkKind (r : Bool) (s t : State) : (envStep r s t).sinkKind = t.sinkKind := rfl
@[simp] theorem envStep_sinkAddr (r : Bool) (s t : State) : (envStep r s t).sinkAddr = t.sinkAddr := rfl
@[simp] theorem envStep_sinkByte (r : Bool) (s t : State) : (envStep r s t).sinkByte = t.sinkByte := rfl
@[simp] theorem envStep_rst (r : Bool) (s t : State) : (envStep r s t).rst = t.rst := rfl
@[simp] theorem envStep_drive (r : Bool) (s t : State) : (envStep r s t).drive = t.drive := rfl
@[simp] theorem envStep_sr (r : Bool) (s t : State) : (envStep r s t).sr = envSr s t := rfl
@[simp] theorem envStep_mem (r : Bool) (s t : State) : (envStep r s t).mem = envMem r s t := rfl
@[simp] theorem envStep_latAddr (r : Bool) (s t : State) : (envStep r s t).latAddr = envLat s t := rfl
@[simp] theorem envStep_busy (r : Bool) (s t : State) : (envStep r s t).busy = envBusy s t := rfl
@[simp] theorem envStep_accWait (r : Bool) (s t : State) : (envStep r s t).accWait = envWait s t := rfl
@[simp] theorem envStep_pulseBad (r : Bool) (s t : State) : (envStep r s t).pulseBad = envBad s t := rfl
@[simp] theorem envStep_draws (r : Bool) (s t : State) : (envStep r s t).draws = envDraws r s t := rfl
@[simp] theorem envStep_sink (r : Bool) (s t : State) : (envStep r s t).sink = t.sink := rfl

/-! ### `emit` -/

@[simp] theorem emit_cfg (e : Event) (s : State) : (emit e s).cfg = s.cfg := by cases e <;> rfl
@[simp] theorem emit_ac (e : Event) (s : State) : (emit e s).ac = s.ac := by cases e <;> rfl
@[simp] theorem emit_ctrl (e : Event) (s : State) : (emit e s).ctrl = s.ctrl := by cases e <;> rfl
@[simp] theorem emit_rdata (e : Event) (s : State) : (emit e s).rdata = s.rdata := by cases e <;> rfl
@[simp] theorem emit_seq (e : Event) (s : State) : (emit e s).seq = s.seq := by cases e <;> rfl
@[simp] theorem emit_areg (e : Event) (s : State) : (emit e s).areg = s.areg := by cases e <;> rfl
@[simp] theorem emit_bi (e : Event) (s : State) : (emit e s).bi = s.bi := by cases e <;> rfl
@[simp] theorem emit_dc (e : Event) (s : State) : (emit e s).dc = s.dc := by cases e <;> rfl
@[simp] theorem emit_serData (e : Event) (s : State) : (emit e s).serData = s.serData := by cases e <;> rfl
@[simp] theorem emit_serClk (e : Event) (s : State) : (emit e s).serClk = s.serClk := by cases e <;> rfl
@[simp] theorem emit_dOut (e : Event) (s : State) : (emit e s).dOut = s.dOut := by cases e <;> rfl
@[simp] theorem emit_dir (e : Event) (s : State) : (emit e s).dir = s.dir := by cases e <;> rfl
@[simp] theorem emit_weN (e : Event) (s : State) : (emit e s).weN = s.weN := by cases e <;> rfl
@[simp] theorem emit_oeN (e : Event) (s : State) : (emit e s).oeN = s.oeN := by cases e <;> rfl
@[simp] theorem emit_sinkValid (e : Event) (s : State) : (emit e s).sinkValid = true := by cases e <;> rfl
@[simp] theorem emit_sinkKind (e : Event) (s : State) : (emit e s).sinkKind = eventKind e := by cases e <;> rfl
@[simp] theorem emit_rst (e : Event) (s : State) : (emit e s).rst = s.rst := by cases e <;> rfl
@[simp] theorem emit_drive (e : Event) (s : State) : (emit e s).drive = s.drive := by cases e <;> rfl
@[simp] theorem emit_sr (e : Event) (s : State) : (emit e s).sr = s.sr := by cases e <;> rfl
@[simp] theorem emit_mem (e : Event) (s : State) : (emit e s).mem = s.mem := by cases e <;> rfl
@[simp] theorem emit_latAddr (e : Event) (s : State) : (emit e s).latAddr = s.latAddr := by cases e <;> rfl
@[simp] theorem emit_busy (e : Event) (s : State) : (emit e s).busy = s.busy := by cases e <;> rfl
@[simp] theorem emit_accWait (e : Event) (s : State) : (emit e s).accWait = s.accWait := by cases e <;> rfl
@[simp] theorem emit_pulseBad (e : Event) (s : State) : (emit e s).pulseBad = s.pulseBad := by cases e <;> rfl
@[simp] theorem emit_draws (e : Event) (s : State) : (emit e s).draws = s.draws := by cases e <;> rfl
@[simp] theorem emit_sink (e : Event) (s : State) : (emit e s).sink = s.sink ++ [e] := by cases e <;> rfl

/-! ### `mapNext` -/

@[simp] theorem mapNext_next (f : State → State) (s : State) : mapNext f (.next s) = .next (f s) := rfl

@[simp] theorem mapNext_refused (f : State → State) (r : Refusal) : mapNext f (.refused r) = .refused r := rfl

/-- `mapNext` answers a next state only of a next state. -/
theorem mapNext_eq_next {f : State → State} {r : Result} {t : State} (h : mapNext f r = .next t) :
    ∃ u, r = .next u ∧ t = f u := by
  cases r with
  | next u => exact ⟨u, rfl, (Host.Outcome.next.inj h).symm⟩
  | fault r => cases h
  | refused r => cases h

end Sys2Proof.Machine
end

