-- ==== Sys2Proof/Laws/Memory.lean ====
section
/-! SUPPORT. The laws of the device's storage: a read after a write, and every operation keeps the canonical form and the
address range. -/

namespace Sys2Proof.Machine

theorem memFind_memInsert_same (m : Memory) (a : Nat) (v : Byte) : memFind (memInsert m a v) a = some v := by
  induction m with
  | nil => simp [memInsert, memFind]
  | cons x m ih =>
    obtain ⟨b, w⟩ := x
    simp only [memInsert]
    split
    · simp [memFind]
    · split
      · simp [memFind]
      · simp [memFind, *]

theorem memFind_memInsert_other (m : Memory) {a b : Nat} (v : Byte) (h : b ≠ a) :
    memFind (memInsert m a v) b = memFind m b := by
  induction m with
  | nil => simp [memInsert, memFind, h]
  | cons x m ih =>
    obtain ⟨c, w⟩ := x
    simp only [memInsert]
    split
    · simp [memFind, h]
    · split
      · rename_i hc
        subst hc
        simp [memFind, h]
      · simp [memFind, ih]

/-- A read of the address just written gives the value written. -/
theorem memRead_memInsert_same (m : Memory) (a : Nat) (v : Byte) : memRead (memInsert m a v) a = v := by
  simp [memRead, memFind_memInsert_same]

/-- A write leaves every other address alone. -/
theorem memRead_memInsert_other (m : Memory) {a b : Nat} (v : Byte) (h : b ≠ a) :
    memRead (memInsert m a v) b = memRead m b := by
  simp [memRead, memFind_memInsert_other m v h]

theorem memRead_memWrite_same {c : Config} (hc : c.devWritable = true) (m : Memory) (a : Nat) (v : Byte) :
    memRead (memWrite c m a v) a = v := by
  simp [memWrite, hc, memRead_memInsert_same]

theorem memRead_memWrite_other (c : Config) (m : Memory) {a b : Nat} (v : Byte) (h : b ≠ a) :
    memRead (memWrite c m a v) b = memRead m b := by
  unfold memWrite
  split
  · exact memRead_memInsert_other m v h
  · rfl

/-- What is in a memory after storing `v` at `a`. -/
theorem mem_memInsert {m : Memory} {a : Nat} {v : Byte} {x : Host.Cell} (h : x ∈ memInsert m a v) :
    x = (a, v) ∨ x ∈ m := by
  induction m with
  | nil => simpa [memInsert] using h
  | cons y m ih =>
    obtain ⟨b, w⟩ := y
    simp only [memInsert] at h
    split at h
    · simpa using h
    · split at h
      · rcases List.mem_cons.mp h with h | h
        · exact .inl h
        · exact .inr (List.mem_cons_of_mem _ h)
      · rcases List.mem_cons.mp h with h | h
        · exact .inr (h ▸ List.mem_cons_self)
        · rcases ih h with h | h
          · exact .inl h
          · exact .inr (List.mem_cons_of_mem _ h)

/-- Storing a byte keeps the canonical form. -/
theorem memInsert_wf {m : Memory} (h : Memory.wf m) (a : Nat) (v : Byte) : Memory.wf (memInsert m a v) := by
  induction m with
  | nil => simp [memInsert]
  | cons y m ih =>
    obtain ⟨b, w⟩ := y
    have hb := List.pairwise_cons.mp h
    simp only [memInsert]
    split
    · rename_i hab
      refine List.pairwise_cons.mpr ⟨fun x hx => ?_, h⟩
      rcases List.mem_cons.mp hx with rfl | hx
      · exact hab
      · exact Nat.lt_trans hab (hb.1 x hx)
    · split
      · rename_i hab
        subst hab
        exact List.pairwise_cons.mpr hb
      · rename_i h1 h2
        refine List.pairwise_cons.mpr ⟨fun x hx => ?_, ih hb.2⟩
        rcases mem_memInsert hx with rfl | hx
        · show b < a
          omega
        · exact hb.1 x hx

theorem memWrite_wf {m : Memory} (c : Config) (h : Memory.wf m) (a : Nat) (v : Byte) : Memory.wf (memWrite c m a v) := by
  unfold memWrite
  split
  · exact memInsert_wf h a v
  · exact h

theorem mem_memWrite {c : Config} {m : Memory} {a : Nat} {v : Byte} {x : Host.Cell} (h : x ∈ memWrite c m a v) :
    x = (a, v) ∨ x ∈ m := by
  unfold memWrite at h
  split at h
  · exact mem_memInsert h
  · exact .inr h

/-- A tick's boundary keeps the canonical form. -/
theorem envMem_wf {s : State} (h : Memory.wf s.mem) (r : Bool) (t : State) : Memory.wf (envMem r s t) := by
  unfold envMem
  split
  · exact memWrite_wf _ (memWrite_wf _ h _ _) _ _
  · split
    · exact memWrite_wf _ h _ _
    · exact h

/-- A tick's boundary touches no address but the old and the new latched one. -/
theorem memRead_envMem_other (r : Bool) (s t : State) {a : Nat} (h₁ : a ≠ s.latAddr) (h₂ : a ≠ envLat s t) :
    memRead (envMem r s t) a = memRead s.mem a := by
  unfold envMem
  split
  · rw [memRead_memWrite_other _ _ _ h₂, memRead_memWrite_other _ _ _ h₁]
  · split
    · exact memRead_memWrite_other _ _ _ h₁
    · rfl

/-- What is in the device's storage after a tick's boundary. -/
theorem mem_envMem {r : Bool} {s t : State} {x : Host.Cell} (h : x ∈ envMem r s t) :
    x.1 = s.latAddr ∨ x.1 = envLat s t ∨ x ∈ s.mem := by
  unfold envMem at h
  split at h
  · rcases mem_memWrite h with rfl | h
    · exact .inr (.inl rfl)
    · rcases mem_memWrite h with rfl | h
      · exact .inl rfl
      · exact .inr (.inr h)
  · split at h
    · rcases mem_memWrite h with rfl | h
      · exact .inl rfl
      · exact .inr (.inr h)
    · exact .inr (.inr h)

theorem reset_mem_wf : Memory.wf State.reset.mem := List.Pairwise.nil

end Sys2Proof.Machine
end

