-- ==== Sys2Proof/Laws/Ops.lean ====
section
/-! SUPPORT. What each shared operation can do, said once: the port, the drivers, the timed states, an instruction, a step. Later
proofs cite these and do not unfold the operations. -/

namespace Sys2Proof.Machine

/-- A direction check answers a next state only by running the command, and only where the direction is right or the
controller drives. -/
theorem withDirection_eq_next {ok : Bool} {r : Refusal} {s t : State} {k : State → State}
    (h : withDirection ok r s k = .next t) : t = k s ∧ (programDriven s = true → ok = true) := by
  unfold withDirection at h
  split at h
  · cases h
  · rename_i hc
    refine ⟨(Host.Outcome.next.inj h).symm, fun hp => ?_⟩
    cases ok
    · simp [hp] at hc
    · rfl

theorem withDirection_controller {s : State} (h : s.drive = .controller) (ok : Bool) (r : Refusal) (k : State → State) :
    withDirection ok r s k = .next (k s) := by
  simp [withDirection, programDriven, h]

theorem withDirection_ok {ok : Bool} (h : ok = true) (r : Refusal) (s : State) (k : State → State) :
    withDirection ok r s k = .next (k s) := by
  simp [withDirection, h]

theorem withDirection_refused {s : State} {ws : List CmdWord} (h : s.drive = .program ws) (r : Refusal)
    (k : State → State) : withDirection false r s k = .refused r := by
  simp [withDirection, programDriven, h]

/-- What a timed state's tick can do. -/
theorem timed_cases (exit : State → State) (s : State) :
    (1 < s.dc ∧ timed exit s = { s with dc := s.dc - 1 }) ∨
    (s.dc = 1 ∧ timed exit s = exit s) ∨
    (s.dc = 0 ∧ timed exit s = s) := by
  unfold timed
  split
  · exact .inl ⟨‹_›, rfl⟩
  · split
    · exact .inr (.inl ⟨‹_›, rfl⟩)
    · exact .inr (.inr ⟨by omega, rfl⟩)

/-- What the data lines can carry: the block's byte, the device's byte, or a free value (R64). -/
theorem bus_cases (s : State) :
    (s.dir = true ∧ (s.oeN = true ∨ s.weN = false) ∧ bus s = s.dOut) ∨
    (s.dir = false ∧ s.oeN = false ∧ s.weN = true ∧ s.busy = 0 ∧ s.accWait = 0 ∧
      bus s = memRead s.mem (devAddr s.cfg s.sr)) ∨
    (busDriven s = none ∧ bus s = Config.freeByte s.draws) := by
  cases hd : s.dir <;> cases ho : s.oeN <;> cases hw : s.weN <;>
    by_cases hb : s.busy = 0 <;> by_cases ha : s.accWait = 0 <;> simp_all [bus, busDriven]

/-- What a READ can sample: the data lines, or with `DIR = 1` a free value (R211, R212). -/
theorem readSample_cases (s : State) :
    (s.dir = false ∧ readSample s = bus s) ∨ (s.dir = true ∧ readSample s = Config.freeByte s.draws) := by
  cases h : s.dir <;> simp [readSample, h]

/-- The controller's command is NONE while the sequencer is busy (R194, R231). -/
@[simp] theorem controllerCommand_busy {s : State} (h : s.seq ≠ .idle) : controllerCommand s = .cmdNone 0 := by
  simp [controllerCommand, h]

/-- So is the word on the port. -/
@[simp] theorem controllerWord_busy {s : State} (h : s.seq ≠ .idle) : controllerWord s = 0#19 := by
  simp [controllerWord, h]

/-- The 64 opcodes are the 16 bases times the 4 modes (R166). -/
theorem opcodeOf_baseOf_modeOf (op : BitVec 6) : opcodeOf (baseOf op) (modeOf op) = op := by
  revert op
  decide

@[simp] theorem baseOf_opcodeOf (ib : BitVec 4) (am : BitVec 2) : baseOf (opcodeOf ib am) = ib := by
  revert ib am
  decide

@[simp] theorem modeOf_opcodeOf (ib : BitVec 4) (am : BitVec 2) : modeOf (opcodeOf ib am) = am := by
  revert ib am
  decide

/-- Under law `CW.opcode` the NOP opcodes are one base's, each of its own mode (R166, R167). -/
theorem cwOpcode_nop {c : Config} (h : cwOpcode c) :
    ∃ ib, ∀ op, baseOf (nopFor c op) = ib ∧ modeOf (nopFor c op) = modeOf op := by
  obtain ⟨ib, hib⟩ := h.1
  exact ⟨ib, fun op => by simp [nopFor, hib]⟩

/-- What an instruction's meaning can do when it answers a next state: nothing, a byte write, one of the other three
commands' acceptance actions, or PRESENT's. -/
theorem exec_next {i : Instr} {s t : State} (h : exec i s = .next t) :
    t = s ∨ (∃ b, t = acceptWrite b s) ∨
    (∃ a : Addr, t = enter .shSetup s.cfg.tSu { s with areg := a, bi := 15, serData := a.getLsbD 15, serClk := false }) ∨
    t = enter .rdWait s.cfg.tAcc s ∨
    t = enter .turnR s.cfg.tTurn { s with dir := false } ∨
    t = enter .turnW s.cfg.tTurn { s with oeN := true } := by
  cases i with
  | cmdNone _ => exact .inl (Host.Outcome.next.inj h).symm
  | present a => exact .inr (.inr (.inl ⟨a, (Host.Outcome.next.inj h).symm⟩))
  | write _ b => exact .inr (.inl ⟨b, (withDirection_eq_next h).1⟩)
  | read _ => exact .inr (.inr (.inr (.inl (withDirection_eq_next h).1)))
  | turnRead _ => exact .inr (.inr (.inr (.inr (.inl (Host.Outcome.next.inj h).symm))))
  | turnWrite _ => exact .inr (.inr (.inr (.inr (.inr (Host.Outcome.next.inj h).symm))))
  | _ => exact .inr (.inl ⟨_, (Host.Outcome.next.inj h).symm⟩)

/-- What a step can do when it answers a next state: a reset tick, an accepted instruction, or a tick of a timed state. -/
theorem step_next {s t : State} (h : step s = .next t) :
    configValid s.cfg = true ∧
    ((rstNow s = true ∧ t = resetTick s) ∨
     (rstNow s = false ∧ s.seq = .idle ∧
       ∃ i u, portDecoded s = .instr i ∧ exec i (acceptState s) = .next u ∧ t = envStep false s u) ∨
     (rstNow s = false ∧ s.seq ≠ .idle ∧ t = busyTick s)) := by
  unfold step at h
  split at h
  · cases h
  · rename_i hc
    refine ⟨by simpa using hc, ?_⟩
    split at h
    · exact .inl ⟨‹_›, (Host.Outcome.next.inj h).symm⟩
    · rename_i hr
      have hr' : rstNow s = false := by simpa using hr
      split at h
      · rename_i hq
        refine .inr (.inl ⟨hr', hq, ?_⟩)
        cases hd : portDecoded s with
        | instr i =>
          rw [hd] at h
          obtain ⟨u, hu, ht⟩ := mapNext_eq_next h
          exact ⟨i, u, rfl, hu, ht⟩
        | reservedCommand k => rw [hd] at h; cases h
      · exact .inr (.inr ⟨hr', ‹_›, (Host.Outcome.next.inj h).symm⟩)

/-- A step of a reset tick. -/
theorem step_of_rst {s : State} (hc : configValid s.cfg = true) (hr : rstNow s = true) : step s = .next (resetTick s) := by
  simp [step, hc, hr]

/-- A step of a tick with a timed state. -/
theorem step_of_busy {s : State} (hc : configValid s.cfg = true) (hr : rstNow s = false) (hq : s.seq ≠ .idle) :
    step s = .next (busyTick s) := by
  simp [step, hc, hr, hq]

/-- The drivers change nothing but the controller's registers, the event port, the sink's list and the program. -/
theorem acceptState_frame (s : State) :
    (acceptState s).cfg = s.cfg ∧ (acceptState s).rdata = s.rdata ∧ (acceptState s).seq = s.seq ∧
    (acceptState s).areg = s.areg ∧ (acceptState s).bi = s.bi ∧ (acceptState s).dc = s.dc ∧
    (acceptState s).serData = s.serData ∧ (acceptState s).serClk = s.serClk ∧ (acceptState s).dOut = s.dOut ∧
    (acceptState s).dir = s.dir ∧ (acceptState s).weN = s.weN ∧ (acceptState s).oeN = s.oeN ∧
    (acceptState s).rst = s.rst.tail ∧ (acceptState s).sr = s.sr ∧ (acceptState s).mem = s.mem ∧
    (acceptState s).latAddr = s.latAddr ∧ (acceptState s).busy = s.busy ∧ (acceptState s).accWait = s.accWait ∧
    (acceptState s).pulseBad = s.pulseBad ∧ (acceptState s).draws = s.draws := by
  unfold acceptState portAdvance
  cases hd : s.drive with
  | program ws => simp [hd]
  | controller =>
    simp only [openTick_drive, hd]
    unfold controllerNext
    cases hc : s.ctrl <;> simp only [openTick_ctrl, hc] <;>
      first
      | (split <;> simp)
      | simp

/-- The sequencer's step changes only the registers of R24 to R29 that it owns. -/
theorem seqStep_frame (d : Byte) (s : State) :
    (seqStep d s).cfg = s.cfg ∧ (seqStep d s).ac = s.ac ∧ (seqStep d s).ctrl = s.ctrl ∧ (seqStep d s).areg = s.areg ∧
    (seqStep d s).dOut = s.dOut ∧ (seqStep d s).sinkValid = s.sinkValid ∧ (seqStep d s).sinkKind = s.sinkKind ∧
    (seqStep d s).sinkAddr = s.sinkAddr ∧ (seqStep d s).sinkByte = s.sinkByte ∧ (seqStep d s).rst = s.rst ∧
    (seqStep d s).drive = s.drive ∧ (seqStep d s).sr = s.sr ∧ (seqStep d s).mem = s.mem ∧
    (seqStep d s).latAddr = s.latAddr ∧ (seqStep d s).busy = s.busy ∧ (seqStep d s).accWait = s.accWait ∧
    (seqStep d s).pulseBad = s.pulseBad ∧ (seqStep d s).draws = s.draws ∧ (seqStep d s).sink = s.sink := by
  cases hq : s.seq <;> simp only [seqStep, hq, and_self]
  all_goals
    rcases timed_cases _ s with ⟨-, h⟩ | ⟨-, h⟩ | ⟨-, h⟩ <;> rw [h] <;>
      simp only [exitShSetup, exitShHigh, exitWrSettle, exitWrLow, exitWrHold, exitRdWait, exitTurnR, exitTurnW]
  all_goals first | (simp; done) | (split <;> simp)

/-- A run of `n + 1` ticks is a step and a run of `n`. -/
theorem runFor_succ {n : Nat} {s t : State} (h : step s = .next t) : runFor (n + 1) s = runFor n t := by
  simp [runFor, Host.Core.run, Sys2Proof.core, h]

@[simp] theorem runFor_zero (s : State) : runFor 0 s = .next s := rfl

/-- A run of `m + n` ticks is a run of `m` and then one of `n`. -/
theorem runFor_add {m n : Nat} {s t : State} (h : runFor m s = .next t) : runFor (m + n) s = runFor n t := by
  induction m generalizing s with
  | zero => rw [Nat.zero_add]; exact congrArg (runFor n) (Host.Outcome.next.inj h)
  | succ m ih =>
    cases hs : step s with
    | next u =>
      rw [runFor_succ hs] at h
      rw [Nat.succ_add, runFor_succ hs]
      exact ih h
    | fault r => cases r
    | refused r => simp [runFor, Host.Core.run, Sys2Proof.core, hs] at h

end Sys2Proof.Machine
end

