-- ==== Sys2Proof/Laws/Bits.lean ====
section
/-! SUPPORT. Fields and concatenations as arithmetic, so that what an encoding says of its fields is closed by `omega`. -/

namespace Sys2Proof

/-- Field `a[lo+n-1 : lo]` as a number. -/
theorem field_toNat {w : Nat} (a : BitVec w) (lo n : Nat) : (field a lo n).toNat = a.toNat / 2 ^ lo % 2 ^ n := by
  simp [field, BitVec.extractLsb'_toNat, Nat.shiftRight_eq_div_pow]

/-- A concatenation as a number: the first operand in the high bits (R13). -/
theorem append_toNat {n m : Nat} (x : BitVec n) (y : BitVec m) : (x ++ y).toNat = x.toNat * 2 ^ m + y.toNat := by
  rw [BitVec.toNat_append, ← Nat.shiftLeft_add_eq_or_of_lt y.isLt, Nat.shiftLeft_eq]

/-- Equality of a field with a value of its width is equality of numbers. -/
theorem field_eq_iff {w : Nat} (a : BitVec w) (lo n : Nat) (v : BitVec n) :
    field a lo n = v ↔ a.toNat / 2 ^ lo % 2 ^ n = v.toNat := by
  rw [← BitVec.toNat_inj, field_toNat]

/-- The masked bits of a word as a number. -/
theorem and_mask_toNat {w : Nat} {x m p : BitVec w} (h : x &&& m = p) : x.toNat &&& m.toNat = p.toNat := by
  rw [← BitVec.toNat_and, h]

/-- A word with constant top bits, masked by those bits. -/
theorem append_and_mask {n m : Nat} (c : BitVec n) (x : BitVec m) :
    (c ++ x) &&& (BitVec.allOnes n ++ 0#m) = c ++ 0#m := by
  ext i h
  simp only [BitVec.getElem_and, BitVec.getElem_append]
  split <;> simp

end Sys2Proof
end

