-- ==== Sys2Proof/Laws/PerInstr.lean ====
section
/-! SUPPORT. Facts about every instruction, one lemma per constructor. -/

namespace Sys2Proof.Laws

/-- The word `encode` writes for an instruction is in the format of its table row and matches the row's mask and pattern
(R102, R103, R104). -/
def EncodingRow.Statement (i : Instr) : Prop :=
  (encode i).format = i.row.format ∧ (encode i).bits &&& i.row.mask = i.row.pattern

theorem EncodingRow.dispOct (slot : BitVec 2) (v : BitVec 12) : EncodingRow.Statement (.dispOct slot v) :=
  ⟨rfl, by
    have h : (0#1 ++ 0#1 ++ slot ++ v : BitVec 16) &&& 0xC000#16 = 0#16 := by
      ext i h
      simp only [BitVec.getElem_and, BitVec.getElem_append]
      interval_cases i <;> simp
    exact and_mask_toNat h⟩

theorem EncodingRow.dispDec0 (v : BitVec 12) : EncodingRow.Statement (.dispDec0 v) :=
  ⟨rfl, by
    have h : (0#1 ++ 1#1 ++ 0#2 ++ v : BitVec 16) &&& 0xF000#16 = 0x4000#16 := by
      ext i h
      simp only [BitVec.getElem_and, BitVec.getElem_append]
      interval_cases i <;> simp
    exact and_mask_toNat h⟩

theorem EncodingRow.dispDec1 (v : BitVec 12) : EncodingRow.Statement (.dispDec1 v) :=
  ⟨rfl, by
    have h : (0#1 ++ 1#1 ++ 1#2 ++ v : BitVec 16) &&& 0xF000#16 = 0x5000#16 := by
      ext i h
      simp only [BitVec.getElem_and, BitVec.getElem_append]
      interval_cases i <;> simp
    exact and_mask_toNat h⟩

theorem EncodingRow.dispDec2 (v : BitVec 12) : EncodingRow.Statement (.dispDec2 v) :=
  ⟨rfl, by
    have h : (0#1 ++ 1#1 ++ 2#2 ++ v : BitVec 16) &&& 0xF000#16 = 0x6000#16 := by
      ext i h
      simp only [BitVec.getElem_and, BitVec.getElem_append]
      interval_cases i <;> simp
    exact and_mask_toNat h⟩

theorem EncodingRow.dispDec3 (v : BitVec 12) : EncodingRow.Statement (.dispDec3 v) :=
  ⟨rfl, by
    have h : (0#1 ++ 1#1 ++ 3#2 ++ v : BitVec 16) &&& 0xF000#16 = 0x7000#16 := by
      ext i h
      simp only [BitVec.getElem_and, BitVec.getElem_append]
      interval_cases i <;> simp
    exact and_mask_toNat h⟩

theorem EncodingRow.dispGuard (rest : BitVec 15) : EncodingRow.Statement (.dispGuard rest) :=
  ⟨rfl, by
    have h : (1#1 ++ rest : BitVec 16) &&& 0x8000#16 = 0x8000#16 := by
      ext i h
      simp only [BitVec.getElem_and, BitVec.getElem_append]
      interval_cases i <;> simp
    exact and_mask_toNat h⟩

theorem EncodingRow.csBank0 (c : BitVec 3) (o : BitVec 6) : EncodingRow.Statement (.csBank0 c o) :=
  ⟨rfl, by
    have h : (0#5 ++ 0#2 ++ c ++ o : BitVec 16) &&& 0xFE00#16 = 0x0000#16 := by
      ext i h
      simp only [BitVec.getElem_and, BitVec.getElem_append]
      interval_cases i <;> simp
    exact and_mask_toNat h⟩

theorem EncodingRow.csBank1 (c : BitVec 3) (o : BitVec 6) : EncodingRow.Statement (.csBank1 c o) :=
  ⟨rfl, by
    have h : (0#5 ++ 1#2 ++ c ++ o : BitVec 16) &&& 0xFE00#16 = 0x0200#16 := by
      ext i h
      simp only [BitVec.getElem_and, BitVec.getElem_append]
      interval_cases i <;> simp
    exact and_mask_toNat h⟩

theorem EncodingRow.csBank2 (c : BitVec 3) (o : BitVec 6) : EncodingRow.Statement (.csBank2 c o) :=
  ⟨rfl, by
    have h : (0#5 ++ 2#2 ++ c ++ o : BitVec 16) &&& 0xFE00#16 = 0x0400#16 := by
      ext i h
      simp only [BitVec.getElem_and, BitVec.getElem_append]
      interval_cases i <;> simp
    exact and_mask_toNat h⟩

theorem EncodingRow.csBank3 (c : BitVec 3) (o : BitVec 6) : EncodingRow.Statement (.csBank3 c o) :=
  ⟨rfl, by
    have h : (0#5 ++ 3#2 ++ c ++ o : BitVec 16) &&& 0xFE00#16 = 0x0600#16 := by
      ext i h
      simp only [BitVec.getElem_and, BitVec.getElem_append]
      interval_cases i <;> simp
    exact and_mask_toNat h⟩

theorem EncodingRow.csOor11 (rest : BitVec 11) : EncodingRow.Statement (.csOor11 rest) :=
  ⟨rfl, by
    have h : (0#4 ++ 1#1 ++ rest : BitVec 16) &&& 0xF800#16 = 0x0800#16 := by
      ext i h
      simp only [BitVec.getElem_and, BitVec.getElem_append]
      interval_cases i <;> simp
    exact and_mask_toNat h⟩

theorem EncodingRow.csOor12 (rest : BitVec 12) : EncodingRow.Statement (.csOor12 rest) :=
  ⟨rfl, by
    have h : (0#3 ++ 1#1 ++ rest : BitVec 16) &&& 0xF000#16 = 0x1000#16 := by
      ext i h
      simp only [BitVec.getElem_and, BitVec.getElem_append]
      interval_cases i <;> simp
    exact and_mask_toNat h⟩

theorem EncodingRow.csOor13 (rest : BitVec 13) : EncodingRow.Statement (.csOor13 rest) :=
  ⟨rfl, by
    have h : (0#2 ++ 1#1 ++ rest : BitVec 16) &&& 0xE000#16 = 0x2000#16 := by
      ext i h
      simp only [BitVec.getElem_and, BitVec.getElem_append]
      interval_cases i <;> simp
    exact and_mask_toNat h⟩

theorem EncodingRow.csOor14 (rest : BitVec 14) : EncodingRow.Statement (.csOor14 rest) :=
  ⟨rfl, by
    have h : (0#1 ++ 1#1 ++ rest : BitVec 16) &&& 0xC000#16 = 0x4000#16 := by
      ext i h
      simp only [BitVec.getElem_and, BitVec.getElem_append]
      interval_cases i <;> simp
    exact and_mask_toNat h⟩

theorem EncodingRow.csOor15 (rest : BitVec 15) : EncodingRow.Statement (.csOor15 rest) :=
  ⟨rfl, by
    have h : (1#1 ++ rest : BitVec 16) &&& 0x8000#16 = 0x8000#16 := by
      ext i h
      simp only [BitVec.getElem_and, BitVec.getElem_append]
      interval_cases i <;> simp
    exact and_mask_toNat h⟩

theorem EncodingRow.cmdNone (arg : BitVec 16) : EncodingRow.Statement (.cmdNone arg) :=
  ⟨rfl, by
    have h : (0#3 ++ arg : BitVec 19) &&& 0x70000#19 = 0x00000#19 := by
      ext i h
      simp only [BitVec.getElem_and, BitVec.getElem_append]
      interval_cases i <;> simp
    exact and_mask_toNat h⟩

theorem EncodingRow.present (a : BitVec 16) : EncodingRow.Statement (.present a) :=
  ⟨rfl, by
    have h : (1#3 ++ a : BitVec 19) &&& 0x70000#19 = 0x10000#19 := by
      ext i h
      simp only [BitVec.getElem_and, BitVec.getElem_append]
      interval_cases i <;> simp
    exact and_mask_toNat h⟩

theorem EncodingRow.write (ign b : BitVec 8) : EncodingRow.Statement (.write ign b) :=
  ⟨rfl, by
    have h : (2#3 ++ ign ++ b : BitVec 19) &&& 0x70000#19 = 0x20000#19 := by
      ext i h
      simp only [BitVec.getElem_and, BitVec.getElem_append]
      interval_cases i <;> simp
    exact and_mask_toNat h⟩

theorem EncodingRow.read (arg : BitVec 16) : EncodingRow.Statement (.read arg) :=
  ⟨rfl, by
    have h : (3#3 ++ arg : BitVec 19) &&& 0x70000#19 = 0x30000#19 := by
      ext i h
      simp only [BitVec.getElem_and, BitVec.getElem_append]
      interval_cases i <;> simp
    exact and_mask_toNat h⟩

theorem EncodingRow.turnRead (arg : BitVec 16) : EncodingRow.Statement (.turnRead arg) :=
  ⟨rfl, by
    have h : (4#3 ++ arg : BitVec 19) &&& 0x70000#19 = 0x40000#19 := by
      ext i h
      simp only [BitVec.getElem_and, BitVec.getElem_append]
      interval_cases i <;> simp
    exact and_mask_toNat h⟩

theorem EncodingRow.turnWrite (arg : BitVec 16) : EncodingRow.Statement (.turnWrite arg) :=
  ⟨rfl, by
    have h : (5#3 ++ arg : BitVec 19) &&& 0x70000#19 = 0x50000#19 := by
      ext i h
      simp only [BitVec.getElem_and, BitVec.getElem_append]
      interval_cases i <;> simp
    exact and_mask_toNat h⟩

end Sys2Proof.Laws
end

