-- ==== Sys2Proof/Certificates/Slice0/Obligations.lean ====
section
/-! DEFINITION. The statements for the provers. Each is about every state, address, instruction or configuration it names; the rule
of spec/ it formalises is in its docstring. A configuration is part of the state, so "every state" is every
configuration too. A value the spec leaves open appears only as an opaque free value, which may be any. -/

open Sys2Proof Sys2Proof.Machine

/-! ### Reset and power-up -/

/-- R292: at power-up the block's registers equal their reset values, `STATUS` is Idle and `READY` is 1. -/
def Obligations.PowerUpEqualsReset : Prop :=
  BlockAtReset State.reset ∧ statusOut State.reset = 0b00#2 ∧ readyOut State.reset = true

/-- R290, R291: a tick with `RST = 1` puts every block register at its reset value, whatever the step would have done, and
leaves the configuration, `SR`, `LAT_ADDR` and the sink's list alone; with no write in progress the device's storage is
untouched and its `BUSY` counts down as in every tick (R63). The clauses on `t.drive` and `t.rst` are the model's choice: a
reset leaves a test program's list where it is, and `RST` is a list of levels (notes/assumptions/10). So is the clause on
`t.sink` in a tick right after an emitting one, whose event the list has already (notes/assumptions/13). -/
def Obligations.ResetTickResetsBlock : Prop :=
  ∀ s : State, configValid s.cfg = true → rstNow s = true →
    ∃ t, step s = .next t ∧ BlockAtReset t ∧ t.cfg = s.cfg ∧ t.sr = s.sr ∧ t.latAddr = s.latAddr ∧ t.sink = s.sink ∧
      t.drive = s.drive ∧ t.rst = s.rst.tail ∧ (s.weN = true → t.mem = s.mem ∧ t.busy = s.busy - 1)

/-- R293: a reset while `WE_N = 0` garbles the byte at `LAT_ADDR` (a free value) and no other; in every other state the
device keeps every byte. -/
def Obligations.ResetGarblesOnlyByteUnderWrite : Prop :=
  ∀ s : State, configValid s.cfg = true → s.cfg.devWritable = true → rstNow s = true →
    ∃ t, step s = .next t ∧ (∀ a, a ≠ s.latAddr → memRead t.mem a = memRead s.mem a) ∧
      (s.weN = false → ∃ n, memRead t.mem s.latAddr = Config.freeByte n) ∧
      (s.weN = true → memRead t.mem s.latAddr = memRead s.mem s.latAddr)

/-! ### The invariant -/

/-- The invariant of Safety.lean holds at power-up (under the model's power-up configuration, notes/assumptions/1). -/
def Obligations.InvariantAtReset : Prop := Inv State.reset

/-- Every tick keeps the invariant: bus exclusion, the write-enable and serial-clock windows, the delay counter's range,
the write-cycle and access times, the sweep's range, the storage's canonical form (R28, R193, R240, R301 to R307). It is
for every state, resets and test programs included, not for runs from reset only. -/
def Obligations.StepKeepsInvariant : Prop := ∀ s t : State, Inv s → step s = .next t → Inv t

/-- R12, R33: no tick changes the configuration or the tables. -/
def Obligations.ConfigurationNeverChanges : Prop := ∀ s t : State, step s = .next t → t.cfg = s.cfg

/-- R310, R283: the configurations a model accepts are exactly those that meet the seven constraints, and a step under any
other is refused by name. Item 5's clause is the model's choice: R310 names the parts' minimum times, which are OPEN, and
neither the four fields nor which of the block's times each is compared with (notes/assumptions/18). That `DW` is
computed from the durations, so that item 1's bound adds nothing, is R11's formula (notes/assumptions/15). -/
def Obligations.ConfigurationConstraints : Prop :=
  (∀ c : Config, configValid c = true ↔
    ((∀ n ∈ [c.tSu, c.tHi, c.tSettle, c.tWe, c.tHold, c.tAcc, c.tTurn], 1 ≤ n ∧ n < 2 ^ cfgDw c) ∧
     c.tWC ≤ c.tSettle ∧ c.tSettle ≤ c.tTurn ∧ c.tAccD ≤ c.tAcc ∧
     (c.minSu ≤ c.tSu ∧ c.minHi ≤ c.tHi ∧ c.minWe ≤ c.tWe ∧ c.minHold ≤ c.tHold) ∧
     ((∃ k, c.deviceSize = 2 ^ k) ∧ c.deviceSize ≤ 65536 ∧ c.pBegin ≤ c.pEnd ∧ c.pEnd ≤ c.deviceSize ∧
      c.vBegin ≤ c.vEnd ∧ c.vEnd ≤ c.deviceSize ∧ 1 ≤ c.pageSize) ∧
     c.seg[5] = 0x19#8)) ∧
  ∀ s : State, configValid s.cfg = false → step s = .refused .configuration

/-! ### Encodings -/

/-- Decoding the word of an instruction gives the instruction back, with every operand at every value. -/
def Obligations.DecodeOfEncode : Prop := ∀ i : Instr, decode (encode i) = .instr i

/-- Every word that decodes to an instruction is the word that instruction encodes to: decoding drops no bit. -/
def Obligations.EncodeOfDecode : Prop := ∀ (w : CodeWord) (i : Instr), decode w = .instr i → encode i = w

/-- R102, R103, R104: the decoder of each format gives the class of a table row exactly on the words of its match and mask,
so exactly one class matches each address. -/
def Obligations.DecoderFollowsTable : Prop :=
  (∀ (a : Addr) (i : Instr), i.format = .da16 →
    (a.toNat &&& i.row.mask = i.row.pattern ↔ (decodeDisp a).row = i.row)) ∧
  (∀ (a : Addr) (i : Instr), i.format = .ca16 →
    (a.toNat &&& i.row.mask = i.row.pattern ↔ (decodeCs a).row = i.row)) ∧
  (∀ (w : CmdWord) (i : Instr), i.format = .cmd19 →
    (w.toNat &&& i.row.mask = i.row.pattern ↔ ∃ j, decodeCmd w = .instr j ∧ j.row = i.row))

/-- R220: codes `110` and `111` are reserved; the decoder rejects exactly them, the controller never drives them, and a
test program's word with one is refused by name. -/
def Obligations.ReservedCommandsRefused : Prop :=
  (∀ (w : CmdWord) (k : BitVec 3), decodeCmd w = .reservedCommand k ↔ field w 16 3 = k ∧ (k = 6#3 ∨ k = 7#3)) ∧
  (∀ s : State, field (controllerWord s) 16 3 ≠ 6#3 ∧ field (controllerWord s) 16 3 ≠ 7#3) ∧
  ∀ (s : State) (w : CmdWord) (ws : List CmdWord), configValid s.cfg = true → rstNow s = false → s.seq = .idle →
    s.drive = .program (w :: ws) → (field w 16 3 = 6#3 ∨ field w 16 3 = 7#3) →
    step s = .refused (.reservedCommand (field w 16 3))

/-- R90, R91, R97 on words written out from the formats: 95_test_vectors.md V15, V30, W11, W13, Q2, Q4. -/
def Obligations.DecodedWords : Prop :=
  decode (.da16 0x500A#16) = .instr (.dispDec1 0x00A#12) ∧
  decode (.da16 0x4FFB#16) = .instr (.dispDec0 0xFFB#12) ∧
  decode (.ca16 0x04E5#16) = .instr (.csBank2 3#3 0x25#6) ∧
  decode (.ca16 0x07FF#16) = .instr (.csBank3 7#3 63#6) ∧
  decode (.cmd19 0x1A5C3#19) = .instr (.present 0xA5C3#16) ∧
  decode (.cmd19 0x2FF19#19) = .instr (.write 0xFF#8 0x19#8)

/-! ### A step runs the decoded instruction -/

/-- R192: in a tick with `SEQ = S_IDLE` the step is `exec` of the instruction on the port, run on the state whose driver has
advanced, and then the environment's answer. In such a tick the port carries a test program's next word, or in `C_P_DATA`
the class of `AC[15:0]`. -/
def Obligations.StepRunsDecodedInstruction : Prop :=
  (∀ (s : State) (i : Instr), configValid s.cfg = true → rstNow s = false → s.seq = .idle →
    portDecoded s = .instr i → i.wellFormed s.cfg.variant = true →
    step s = mapNext (envStep false s) (exec i (acceptState s))) ∧
  (∀ (s : State) (w : CmdWord) (ws : List CmdWord), s.drive = .program (w :: ws) →
    portDecoded s = decode (.cmd19 w) ∧ acceptState s = { openTick s with drive := .program ws }) ∧
  (∀ s : State, s.drive = .controller → s.seq = .idle → s.ctrl = .pData →
    portDecoded s = .instr (decodeAddr s.cfg.variant (acAddr s)) ∧
    acceptState s = { openTick s with ctrl := .pDone })

/-- R191, R234: the instruction the controller runs in a tick is the one its 19-bit command word decodes to, and whatever is
on the port is an instruction of the build. -/
def Obligations.ControllerWordIsWhatRuns : Prop :=
  (∀ s : State, s.drive = .controller →
    ∃ j, decodeCmd (controllerWord s) = .instr j ∧
      exec j (acceptState s) = exec (controllerCommand s) (acceptState s)) ∧
  ∀ (s : State) (i : Instr), portDecoded s = .instr i → i.wellFormed s.cfg.variant = true

/-- R192, R194, R231: in a tick with `SEQ != S_IDLE` the port is not read, the controller drives NONE and changes nothing, and
nothing is emitted. The clause `t.sink = s.sink` is the model's reading in the busy tick right after an emitting one: the
sink's list has had the event since the end of the emitting tick (notes/assumptions/13). -/
def Obligations.BusyTickIgnoresPort : Prop :=
  ∀ s : State, configValid s.cfg = true → rstNow s = false → s.seq ≠ .idle →
    ∃ t, step s = .next t ∧ t.ctrl = s.ctrl ∧ t.ac = s.ac ∧ t.drive = s.drive ∧ t.sink = s.sink ∧ t.sinkValid = false ∧
      (∀ d : Drive, step { s with drive := d } = .next { t with drive := d }) ∧
      controllerWord s = 0x00000#19 ∧ (s.drive = .controller → portDecoded s = .instr (.cmdNone 0))

/-- R193 with the exit actions of R201, R206, R211, R215 and R218: a timed state whose `DC` holds `T` is kept for exactly `T`
ticks, counting down with the outputs unchanged, and then its exit action enters the next state with that state's duration.
That `DC` is still 1 after an exit to `S_IDLE` is given by 95_test_vectors.md for PRESENT (Q9) and READ (P1), and is for
WRITE and the turnarounds the model's reading (notes/assumptions/23). -/
def Obligations.TimedStateLastsItsDuration : Prop :=
  ∀ s : State, configValid s.cfg = true → s.rst = [] → s.seq ≠ .idle → 1 ≤ s.dc →
    (∀ k, k < s.dc → ∃ u, runFor k s = .next u ∧ u.seq = s.seq ∧ u.dc = s.dc - k ∧ u.serData = s.serData ∧
      u.serClk = s.serClk ∧ u.dOut = s.dOut ∧ u.dir = s.dir ∧ u.weN = s.weN ∧ u.oeN = s.oeN) ∧
    ∃ t, runFor s.dc s = .next t ∧ (t.seq, t.dc) =
      match s.seq with
      | .shSetup => (.shHigh, s.cfg.tHi)
      | .shHigh => if 0 < s.bi.toNat then (.shSetup, s.cfg.tSu) else (.idle, 1)
      | .wrSettle => (.wrLow, s.cfg.tWe)
      | .wrLow => (.wrHold, s.cfg.tHold)
      | _ => (.idle, 1)

/-! ### The encoder classes -/

/-- R133 to R137: what each display class writes, in the rules' arithmetic, and that it changes nothing else of the state
but the sequencer's entry into the write (R206). -/
def Obligations.DisplayClassResults : Prop :=
  (∀ (slot : BitVec 2) (v : BitVec 12) (s : State), exec (.dispOct slot v) s =
    .next { s with dOut := s.cfg.seg[v.toNat / 2 ^ (3 * slot.toNat) % 8], seq := .wrSettle, dc := s.cfg.tSettle }) ∧
  (∀ (v : BitVec 12) (s : State), exec (.dispDec0 v) s =
    .next { s with
      dOut := s.cfg.seg[v.toInt.natAbs % 10] ^^^ (if v.toInt < 0 then s.cfg.signMask else 0x00#8)
      seq := .wrSettle, dc := s.cfg.tSettle }) ∧
  (∀ (v : BitVec 12) (s : State), exec (.dispDec1 v) s =
    .next { s with
      dOut := if v.toInt.natAbs < 10 then 0xFF#8 else s.cfg.seg[v.toInt.natAbs / 10 % 10]
      seq := .wrSettle, dc := s.cfg.tSettle }) ∧
  (∀ (v : BitVec 12) (s : State), exec (.dispDec2 v) s =
    .next { s with
      dOut := if v.toInt.natAbs < 100 then 0xFF#8 else s.cfg.seg[v.toInt.natAbs / 100 % 10]
      seq := .wrSettle, dc := s.cfg.tSettle }) ∧
  (∀ (v : BitVec 12) (s : State), exec (.dispDec3 v) s =
    .next { s with
      dOut := if v.toInt.natAbs < 1000 then 0xFF#8 else s.cfg.seg[v.toInt.natAbs / 1000 % 10]
      seq := .wrSettle, dc := s.cfg.tSettle }) ∧
  (∀ (rest : BitVec 15) (s : State), exec (.dispGuard rest) s =
    .next { s with dOut := 0xFF#8, seq := .wrSettle, dc := s.cfg.tSettle })

/-- R173 to R175: what each control-store class writes (bank `B` is bits `8B+7..8B` of the word), and that it changes
nothing else of the state but the sequencer's entry into the write (R206). -/
def Obligations.ControlStoreClassResults : Prop :=
  (∀ (c : BitVec 3) (o : BitVec 6) (s : State), exec (.csBank0 c o) s =
    .next { s with dOut := s.cfg.cw[o.toNat][c.toNat].extractLsb' 0 8, seq := .wrSettle, dc := s.cfg.tSettle }) ∧
  (∀ (c : BitVec 3) (o : BitVec 6) (s : State), exec (.csBank1 c o) s =
    .next { s with dOut := s.cfg.cw[o.toNat][c.toNat].extractLsb' 8 8, seq := .wrSettle, dc := s.cfg.tSettle }) ∧
  (∀ (c : BitVec 3) (o : BitVec 6) (s : State), exec (.csBank2 c o) s =
    .next { s with dOut := s.cfg.cw[o.toNat][c.toNat].extractLsb' 16 8, seq := .wrSettle, dc := s.cfg.tSettle }) ∧
  (∀ (c : BitVec 3) (o : BitVec 6) (s : State), exec (.csBank3 c o) s =
    .next { s with dOut := 0x00#8, seq := .wrSettle, dc := s.cfg.tSettle }) ∧
  (∀ (r : BitVec 11) (s : State), exec (.csOor11 r) s =
    .next { s with dOut := 0x00#8, seq := .wrSettle, dc := s.cfg.tSettle }) ∧
  (∀ (r : BitVec 12) (s : State), exec (.csOor12 r) s =
    .next { s with dOut := 0x00#8, seq := .wrSettle, dc := s.cfg.tSettle }) ∧
  (∀ (r : BitVec 13) (s : State), exec (.csOor13 r) s =
    .next { s with dOut := 0x00#8, seq := .wrSettle, dc := s.cfg.tSettle }) ∧
  (∀ (r : BitVec 14) (s : State), exec (.csOor14 r) s =
    .next { s with dOut := 0x00#8, seq := .wrSettle, dc := s.cfg.tSettle }) ∧
  (∀ (r : BitVec 15) (s : State), exec (.csOor15 r) s =
    .next { s with dOut := 0x00#8, seq := .wrSettle, dc := s.cfg.tSettle })

/-- R132: the classes together are the whole function `ENC_DISP`, on every address. -/
def Obligations.DisplayClassesAreWholeFunction : Prop :=
  ∀ (a : Addr) (s : State), exec (decodeDisp a) s = .next (acceptWrite (encDisp s.cfg a) s)

/-- R172: the classes together are the whole function `ENC_CS`, on every address. -/
def Obligations.ControlStoreClassesAreWholeFunction : Prop :=
  ∀ (a : Addr) (s : State), exec (decodeCs a) s = .next (acceptWrite (encCs s.cfg a) s)

/-- R138: in octal mode the byte depends, for a fixed slot `S`, on bits `3S+2..3S` of the address only. -/
def Obligations.OctalIndependence : Prop :=
  ∀ (c : Config) (a b : Addr), a.toNat < 0x4000 → b.toNat < 0x4000 → field a 12 2 = field b 12 2 →
    field a (3 * (field a 12 2).toNat) 3 = field b (3 * (field a 12 2).toNat) 3 → encDisp c a = encDisp c b

/-- After R139 (notes/assumptions/16): in decimal mode a slot above 0 is blank when the magnitude is below `10^S` and shows the digit's pattern
otherwise; with no digit pattern equal to the blank one, it is blank exactly when the magnitude is below `10^S`. Slot 0 is
never suppressed. -/
def Obligations.LeadingZeroSuppression : Prop :=
  ∀ (c : Config) (slot : BitVec 2) (v : BitVec 12), slot ≠ 0#2 →
    (v.toInt.natAbs < 10 ^ slot.toNat → encDisp c (dispAddr true slot v) = 0xFF#8) ∧
    (10 ^ slot.toNat ≤ v.toInt.natAbs →
      encDisp c (dispAddr true slot v) = c.seg[v.toInt.natAbs / 10 ^ slot.toNat % 10]) ∧
    ((∀ d : Fin 10, c.seg[d.val] ≠ 0xFF#8) →
      (encDisp c (dispAddr true slot v) = 0xFF#8 ↔ v.toInt.natAbs < 10 ^ slot.toNat)) ∧
    encDisp c (dispAddr true 0#2 v) =
      c.seg[v.toInt.natAbs % 10] ^^^ (if v.toInt < 0 then c.signMask else 0x00#8)

/-- R140: a negative value's high slots equal its magnitude's, and at slot 0 the two differ by exactly `SIGN_MASK`. -/
def Obligations.SignSymmetry : Prop :=
  ∀ (c : Config) (m : Nat), 1 ≤ m → m ≤ 2047 →
    (∀ slot : BitVec 2, slot ≠ 0#2 →
      encDisp c (dispAddr true slot (BitVec.ofNat 12 m)) =
        encDisp c (dispAddr true slot (BitVec.ofNat 12 (4096 - m)))) ∧
    encDisp c (dispAddr true 0#2 (BitVec.ofNat 12 m)) ^^^ encDisp c (dispAddr true 0#2 (BitVec.ofNat 12 (4096 - m))) =
      c.signMask

/-- R171: the address of bank `B` of the word for `(op, c)`, and that decoding it gives that bank's class. -/
def Obligations.BankAddressComposition : Prop :=
  ∀ (b : BitVec 2) (cyc : BitVec 3) (op : BitVec 6),
    (csAddr b cyc op).toNat = (b.toNat <<< 9) ||| (cyc.toNat <<< 6) ||| op.toNat ∧
    decodeCs (csAddr b cyc op) =
      if b = 0#2 then .csBank0 cyc op else if b = 1#2 then .csBank1 cyc op
      else if b = 2#2 then .csBank2 cyc op else .csBank3 cyc op

/-- R176: what the laws `CW.fetch`, `CW.zero` and `CW.len` give of the image; the second fetch word is at cycle 1. -/
def Obligations.ImageUnderTableLaws : Prop :=
  ∀ (c : Config) (op : BitVec 6),
    (cwFetch c → ∀ b : BitVec 2, b ≠ 3#2 →
      encCs c (csAddr b 0#3 op) = bankByte (fetch0 c) b.toNat ∧
      encCs c (csAddr b 1#3 op) = bankByte c.fetch1 b.toNat) ∧
    (cwZero c → ∀ (cyc : BitVec 3) (b : BitVec 2), lenAt c op ≤ cyc.toNat → encCs c (csAddr b cyc op) = 0x00#8) ∧
    (cwLen c → (∀ cyc : BitVec 3, cyc.toNat ≤ 2 → cycleRole c op cyc ≠ .beyond) ∧
      (cwZero c → lenAt c op ≠ 8 → cwAt c op 7#3 = 0#24))

/-- R177: the three banks together give the whole control word. -/
def Obligations.BanksRecombine : Prop :=
  ∀ (c : Config) (cyc : BitVec 3) (op : BitVec 6) (a : Addr), a = csAddr 0#2 cyc op →
    cwAt c op cyc = (encCs c a).setWidth 24 ||| ((encCs c (a + 0x200#16)).setWidth 24 <<< 8) |||
      ((encCs c (a + 0x400#16)).setWidth 24 <<< 16)

/-- After R167 (law `CW.reserved`): a reserved opcode's image is its addressing mode's NOP's, in every bank and cycle, and
the NOP is of the same mode. -/
def Obligations.ReservedOpcodesImageNop : Prop :=
  ∀ (c : Config) (op : BitVec 6), cwReserved c → op ∈ c.rsvOps →
    modeOf (nopFor c op) = modeOf op ∧
    ∀ (b : BitVec 2) (cyc : BitVec 3), encCs c (csAddr b cyc op) = encCs c (csAddr b cyc (nopFor c op))

/-- R169: `FETCH0` asserts exactly `PC_OUT` and `MAR_IN`. -/
def Obligations.FetchZeroSignals : Prop :=
  ∀ (c : Config) (p : Fin 24), asserted (fetch0 c) p = true ↔ p = c.sigPcOut ∨ p = c.sigMarIn

/-! ### The bus commands -/

/-- R194, R201, R206, R211, R215, R218: each command's acceptance action as the whole next state. WRITE and READ run where
their direction precondition holds, and always under the controller. -/
def Obligations.CommandAcceptance : Prop :=
  (∀ (arg : BitVec 16) (s : State), exec (.cmdNone arg) s = .next s) ∧
  (∀ (a : BitVec 16) (s : State), exec (.present a) s =
    .next { s with areg := a, bi := 15#4, serData := a.getLsbD 15, serClk := false, seq := .shSetup, dc := s.cfg.tSu }) ∧
  (∀ (ign b : BitVec 8) (s : State), (s.dir = true ∧ s.oeN = true) ∨ s.drive = .controller →
    exec (.write ign b) s = .next { s with dOut := b, seq := .wrSettle, dc := s.cfg.tSettle }) ∧
  (∀ (arg : BitVec 16) (s : State), (s.dir = false ∧ s.oeN = false) ∨ s.drive = .controller →
    exec (.read arg) s = .next { s with seq := .rdWait, dc := s.cfg.tAcc }) ∧
  (∀ (arg : BitVec 16) (s : State), exec (.turnRead arg) s =
    .next { s with dir := false, seq := .turnR, dc := s.cfg.tTurn }) ∧
  (∀ (arg : BitVec 16) (s : State), exec (.turnWrite arg) s =
    .next { s with oeN := true, seq := .turnW, dc := s.cfg.tTurn })

/-- R207, R212, D41: a test program's WRITE or READ with the wrong bus direction is refused by name; where one is under way
all the same, the byte it writes or samples is a free value. -/
def Obligations.WrongDirectionRefused : Prop :=
  (∀ (s : State) (ws : List CmdWord), s.drive = .program ws →
    (∀ ign b : BitVec 8, s.dir = false ∨ s.oeN = false → exec (.write ign b) s = .refused .writeDirection) ∧
    (∀ arg : BitVec 16, s.dir = true ∨ s.oeN = true → exec (.read arg) s = .refused .readDirection)) ∧
  (∀ s : State, configValid s.cfg = true → rstNow s = false → s.seq = .wrLow → s.weN = false → s.dc = 1 →
    s.cfg.devWritable = true → s.dir = false ∨ s.oeN = false →
    ∃ t n, step s = .next t ∧ memRead t.mem s.latAddr = Config.freeByte n) ∧
  (∀ s : State, configValid s.cfg = true → rstNow s = false → s.seq = .rdWait → s.dc = 1 →
    s.dir = true ∨ s.oeN = true → ∃ t n, step s = .next t ∧ t.rdata = Config.freeByte n)

/-- R107: the ignored operand bits do not change behaviour: two words with the same code, and the same operand where the
command has one, give the same step. -/
def Obligations.IgnoredOperandBits : Prop :=
  ∀ (s : State) (w w' : CmdWord) (ws : List CmdWord), rstNow s = false → s.seq = .idle →
    field w 16 3 = field w' 16 3 → (field w 16 3 = 1#3 → field w 0 16 = field w' 0 16) →
    (field w 16 3 = 2#3 → field w 0 8 = field w' 0 8) →
    step { s with drive := .program (w :: ws) } = step { s with drive := .program (w' :: ws) }

/-- What an instruction's meaning leaves unchanged when it gives a next state: every byte of the device, the controller's
registers, `RDATA`, `WE_N`, the event port, the environment and the sink. -/
def Obligations.InstructionFrame : Prop :=
  ∀ (i : Instr) (s t : State), exec i s = .next t →
    (∀ a, memRead t.mem a = memRead s.mem a) ∧ t.cfg = s.cfg ∧ t.ac = s.ac ∧ t.ctrl = s.ctrl ∧ t.rdata = s.rdata ∧
    t.weN = s.weN ∧ t.sinkValid = s.sinkValid ∧ t.sinkKind = s.sinkKind ∧ t.sinkAddr = s.sinkAddr ∧
    t.sinkByte = s.sinkByte ∧ t.rst = s.rst ∧ t.drive = s.drive ∧ t.sr = s.sr ∧ t.latAddr = s.latAddr ∧
    t.busy = s.busy ∧ t.accWait = s.accWait ∧ t.pulseBad = s.pulseBad ∧ t.draws = s.draws ∧ t.sink = s.sink

/-- R68, R200, R201, R202: PRESENT puts the address on `SER_DATA` bit 15 first, each bit stable for `T_SU` ticks of low and
`T_HI` ticks of high `SER_CLK`, and leaves `SR = a` whatever it held; nothing else of the bus or the device changes. That
`BI` is 0 and `AREG` still holds `a` afterwards is given by 95_test_vectors.md (Q9, P1); no rule names them
(notes/assumptions/23). -/
def Obligations.PresentShiftsAddress : Prop :=
  ∀ (s : State) (a : Addr), Accepts s (.present a) →
    (∀ k j, k < 16 → j < s.cfg.tSu + s.cfg.tHi →
      ∃ u, runFor (1 + k * (s.cfg.tSu + s.cfg.tHi) + j) s = .next u ∧ u.seq ≠ .idle ∧
        u.serData = a.getLsbD (15 - k) ∧ u.serClk = decide (s.cfg.tSu ≤ j)) ∧
    ∃ t, runFor (1 + 16 * (s.cfg.tSu + s.cfg.tHi)) s = .next t ∧ t.seq = .idle ∧ t.sr = a ∧
      t.serData = a.getLsbD 0 ∧ t.serClk = false ∧ t.areg = a ∧ t.bi = 0#4 ∧
      t.dOut = s.dOut ∧ t.dir = s.dir ∧ t.weN = s.weN ∧ t.oeN = s.oeN ∧ t.rdata = s.rdata ∧
      t.latAddr = s.latAddr ∧ ∀ x, memRead t.mem x = memRead s.mem x

/-- R205, R206, R221: a WRITE with the lines driven and the device idle by the falling edge stores its byte at
`SR mod DEVICE_SIZE` and nowhere else, and leaves the device busy for the rest of `t_WC`. -/
def Obligations.WriteStoresByte : Prop :=
  ∀ (s : State) (ign b : BitVec 8), Accepts s (.write ign b) → s.dir = true → s.oeN = true → s.weN = true →
    s.busy ≤ s.cfg.tSettle → s.cfg.devWritable = true →
    ∃ t, runFor (1 + s.cfg.tSettle + s.cfg.tWe + s.cfg.tHold) s = .next t ∧ t.seq = .idle ∧
      memRead t.mem (devAddr s.cfg s.sr) = b ∧
      (∀ x, x ≠ devAddr s.cfg s.sr → memRead t.mem x = memRead s.mem x) ∧
      t.latAddr = devAddr s.cfg s.sr ∧ t.busy = s.cfg.tWC - s.cfg.tHold ∧ t.dOut = b ∧ t.sr = s.sr ∧
      t.dir = true ∧ t.weN = true ∧ t.oeN = true ∧ t.serData = s.serData ∧ t.serClk = s.serClk ∧ t.rdata = s.rdata

/-- R234 with R205: in `C_P_DATA` the class of `AC[15:0]` stores `ENC(AC[15:0])`, of the configured variant, at
`SR mod DEVICE_SIZE` and nowhere else, and Programming goes on to `C_P_DONE`. -/
def Obligations.EncoderClassStoresByte : Prop :=
  ∀ s : State, configValid s.cfg = true → s.rst = [] → s.seq = .idle → s.drive = .controller → s.ctrl = .pData →
    s.dir = true → s.oeN = true → s.weN = true → s.busy ≤ s.cfg.tSettle → s.cfg.devWritable = true →
    ∃ t, runFor (1 + s.cfg.tSettle + s.cfg.tWe + s.cfg.tHold) s = .next t ∧ t.seq = .idle ∧ t.ctrl = .pDone ∧
      t.ac = s.ac ∧ memRead t.mem (devAddr s.cfg s.sr) = enc s.cfg (acAddr s) ∧
      (∀ x, x ≠ devAddr s.cfg s.sr → memRead t.mem x = memRead s.mem x) ∧ t.dOut = enc s.cfg (acAddr s)

/-- R210, R211, R221: a READ with the device driving, idle and settled by the sample gives the addressed byte in `RDATA` and
changes no byte of the device. -/
def Obligations.ReadSamplesByte : Prop :=
  ∀ (s : State) (arg : BitVec 16), Accepts s (.read arg) → s.dir = false → s.oeN = false → s.weN = true →
    s.busy ≤ s.cfg.tAcc → s.accWait ≤ s.cfg.tAcc →
    ∃ t, runFor (1 + s.cfg.tAcc) s = .next t ∧ t.seq = .idle ∧ t.rdata = memRead s.mem (devAddr s.cfg s.sr) ∧
      (∀ x, memRead t.mem x = memRead s.mem x) ∧ t.sr = s.sr ∧ t.dOut = s.dOut ∧ t.dir = s.dir ∧ t.weN = s.weN ∧
      t.oeN = s.oeN ∧ t.serData = s.serData ∧ t.serClk = s.serClk

/-- R215, R218: a turnaround changes one of `DIR` and `OE_N` at its acceptance and the other `T_TURN` ticks later, so that the
block and the device never drive together; the device keeps every byte. -/
def Obligations.TurnaroundOrder : Prop :=
  (∀ (s : State) (arg : BitVec 16), Accepts s (.turnRead arg) →
    (∀ k, 1 ≤ k → k ≤ s.cfg.tTurn → ∃ u, runFor k s = .next u ∧ u.dir = false ∧ u.oeN = s.oeN ∧ u.seq = .turnR) ∧
    ∃ t, runFor (1 + s.cfg.tTurn) s = .next t ∧ t.seq = .idle ∧ t.dir = false ∧ t.oeN = false ∧ t.weN = s.weN ∧
      t.dOut = s.dOut ∧ t.sr = s.sr ∧ ∀ x, memRead t.mem x = memRead s.mem x) ∧
  (∀ (s : State) (arg : BitVec 16), Accepts s (.turnWrite arg) →
    (∀ k, 1 ≤ k → k ≤ s.cfg.tTurn → ∃ u, runFor k s = .next u ∧ u.oeN = true ∧ u.dir = s.dir ∧ u.seq = .turnW) ∧
    ∃ t, runFor (1 + s.cfg.tTurn) s = .next t ∧ t.seq = .idle ∧ t.dir = true ∧ t.oeN = true ∧ t.weN = s.weN ∧
      t.dOut = s.dOut ∧ t.sr = s.sr ∧ ∀ x, memRead t.mem x = memRead s.mem x)

/-- R221, R316: the ticks every instruction occupies: the sequencer is idle again after exactly that many. -/
def Obligations.InstructionTicks : Prop :=
  ∀ (s u : State) (i : Instr), Accepts s i → step s = .next u →
    let n := match i with
      | .cmdNone _ => 1
      | .present _ => 1 + 16 * (s.cfg.tSu + s.cfg.tHi)
      | .read _ => 1 + s.cfg.tAcc
      | .turnRead _ => 1 + s.cfg.tTurn
      | .turnWrite _ => 1 + s.cfg.tTurn
      | _ => 1 + s.cfg.tSettle + s.cfg.tWe + s.cfg.tHold
    (∀ k, 0 < k → k < n → ∃ t, runFor k s = .next t ∧ t.seq ≠ .idle) ∧ ∃ t, runFor n s = .next t ∧ t.seq = .idle

/-! ### The environment -/

/-- R61: at a rising edge of `SER_CLK`, and only there, `SR <- (SR[14:0], SER_DATA)`. -/
def Obligations.ShiftRegisterBehaviour : Prop :=
  ∀ s t : State, step s = .next t →
    ((s.serClk = false ∧ t.serClk = true) →
      (∀ i, i < 15 → t.sr.getLsbD (i + 1) = s.sr.getLsbD i) ∧ t.sr.getLsbD 0 = s.serData) ∧
    (¬ (s.serClk = false ∧ t.serClk = true) → t.sr = s.sr)

/-- R62: device address line `i` is bit `i` of `SR` for `i < AW`; higher bits are not connected, so the device sees
`SR mod DEVICE_SIZE`. -/
def Obligations.DeviceAddressWiring : Prop :=
  ∀ (c : Config) (p : Addr), configValid c = true →
    devAddr c p = p.toNat % c.deviceSize ∧ (∀ i, (devAddr c p).testBit i = (decide (i < cfgAw c) && p.getLsbD i)) ∧
    ∀ q : Addr, q.toNat % c.deviceSize = p.toNat % c.deviceSize → devAddr c q = devAddr c p

/-- R63, outside the violations of R67 and R293: the address is latched at a falling edge of `WE_N` with `OE_N = 1`, the data
lines are stored there at a rising edge, which starts a write cycle of `t_WC` ticks; `BUSY` counts down otherwise. -/
def Obligations.DeviceWriteCycle : Prop :=
  ∀ s t : State, step s = .next t → rstNow s = false → s.pulseBad = false → s.oeN = true → s.cfg.devWritable = true →
    ((s.weN = true ∧ t.weN = false) → t.latAddr = s.sr.toNat % s.cfg.deviceSize) ∧
    (¬ (s.weN = true ∧ t.weN = false) → t.latAddr = s.latAddr) ∧
    ((s.weN = false ∧ t.weN = true) → memRead t.mem s.latAddr = bus s ∧
      (∀ x, x ≠ s.latAddr → memRead t.mem x = memRead s.mem x) ∧ t.busy = s.cfg.tWC) ∧
    (¬ (s.weN = false ∧ t.weN = true) → t.busy = s.busy - 1)

/-- R67: a falling edge of `WE_N` while the device is busy leaves free values at the old and the new latched address, a
rising edge while `OE_N = 0` leaves one at `LAT_ADDR`, and a read while the device is busy gives one. -/
def Obligations.TimingViolationsGarble : Prop :=
  (∀ s t : State, step s = .next t → s.cfg.devWritable = true →
    ((s.weN = true ∧ t.weN = false ∧ 0 < s.busy) →
      (∃ n, memRead t.mem s.latAddr = Config.freeByte n) ∧ ∃ n, memRead t.mem t.latAddr = Config.freeByte n) ∧
    ((s.weN = false ∧ t.weN = true ∧ s.oeN = false) → ∃ n, memRead t.mem s.latAddr = Config.freeByte n)) ∧
  ∀ s : State, s.dir = false → 0 < s.busy → bus s = Config.freeByte s.draws

/-- R65, R295: a tick changes no byte of the device but at the latched addresses, none at all without an edge of `WE_N`, and
none of a device whose writes are blocked. -/
def Obligations.DeviceChangesOnlyAtEdges : Prop :=
  ∀ s t : State, step s = .next t →
    (∀ a, a ≠ s.latAddr → a ≠ t.latAddr → memRead t.mem a = memRead s.mem a) ∧
    (t.weN = s.weN → t.mem = s.mem) ∧ (s.cfg.devWritable = false → t.mem = s.mem)

/-- R69, R70: line `i` carries bit `i` of the byte WRITE drives, and READ's exit takes bit `i` of `RDATA` from line `i` of
the tick of the exit, with the lines as inputs (with `DIR = 1` R212 makes `RDATA` a free value: WrongDirectionRefused). -/
def Obligations.DataLineOrder : Prop :=
  (∀ (ign b : BitVec 8) (s t : State) (i : Fin 8), exec (.write ign b) s = .next t →
    dataLine t.dOut i = b.getLsbD i.val) ∧
  ∀ (s : State) (i : Fin 8), configValid s.cfg = true → rstNow s = false → s.seq = .rdWait → s.dc = 1 →
    s.dir = false → ∃ t, step s = .next t ∧ t.rdata.getLsbD i.val = dataLine (bus s) i

/-! ### The hazards -/

/-- R301: from a state of the invariant, with resets and commands as they come, the block and the device never drive the
data lines together. -/
def Obligations.BusNeverContended : Prop :=
  ∀ (n : Nat) (s t : State), Inv s → runFor n s = .next t → ¬ (t.dir = true ∧ t.oeN = false ∧ t.weN = true)

/-- R302: `WE_N` is 1 whenever `SR` changes. -/
def Obligations.ShiftsOnlyWithWriteDisabled : Prop :=
  ∀ s t : State, Inv s → step s = .next t → t.sr ≠ s.sr → s.weN = true ∧ t.weN = true

/-- R305: under the invariant no write pulse starts while the device is busy. R63, R64, R205: every pulse that no reset cuts
short stores the byte on `D_OUT` at the latched address. -/
def Obligations.WritePulsesNeverViolate : Prop :=
  ∀ s t : State, Inv s → rstNow s = false → step s = .next t →
    (s.weN = true → t.weN = false → s.busy = 0) ∧
    (s.weN = false → t.weN = true → t.mem = memWrite s.cfg s.mem s.latAddr s.dOut)

/-- R306, R307: under the invariant every READ samples the device's byte at `SR mod DEVICE_SIZE`, never an open bus. -/
def Obligations.SamplesAreDeviceBytes : Prop :=
  ∀ s : State, Inv s → rstNow s = false → s.seq = .rdWait → s.dc = 1 →
    ∃ t, step s = .next t ∧ t.rdata = memRead s.mem (devAddr s.cfg s.sr) ∧ t.mem = s.mem

/-! ### The controller -/

/-- R241: the transition table, row by row: the command word, the event, the next `CTRL` and `AC`. An event is stated as the
sink's list having it at the end of the emitting tick: `emit` hands it to the sink (R14), and that the list has it then
and not a tick later is the model's reading (notes/assumptions/13). -/
def Obligations.ControllerTransitions : Prop :=
  ∀ s : State, configValid s.cfg = true → rstNow s = false → s.seq = .idle → s.drive = .controller →
    ∃ t, step s = .next t ∧ (controllerWord s, t.ctrl, t.ac, t.sink) =
      match s.ctrl with
      | .idle => (0x50000#19, .pAddr, BitVec.ofNat 17 s.cfg.pBegin, s.sink ++ [.start])
      | .pAddr =>
        if s.ac.toNat < s.cfg.pEnd then (BitVec.ofNat 19 (0x10000 + s.ac.toNat % 65536), .pData, s.ac, s.sink)
        else (0x40000#19, .vAddr, BitVec.ofNat 17 s.cfg.vBegin, s.sink ++ [.finish])
      | .pData =>
        (BitVec.ofNat 19 (0x20000 + (enc s.cfg (BitVec.ofNat 16 s.ac.toNat)).toNat), .pDone, s.ac, s.sink)
      | .pDone =>
        (0x00000#19, .pAddr, s.ac + 1,
          if (s.ac.toNat + 1) % s.cfg.pageSize = 0 then s.sink ++ [.page] else s.sink)
      | .vAddr =>
        if s.ac.toNat < s.cfg.vEnd then (BitVec.ofNat 19 (0x10000 + s.ac.toNat % 65536), .vRead, s.ac, s.sink)
        else (0x00000#19, .done, s.ac, s.sink)
      | .vRead => (0x30000#19, .vEmit, s.ac, s.sink)
      | .vEmit => (0x00000#19, .vAddr, s.ac + 1, s.sink ++ [.byte (BitVec.ofNat 16 s.ac.toNat) s.rdata])
      | .done => (0x00000#19, .done, s.ac, s.sink)

/-- R230: without a reset, `STATUS` only goes from Idle to Programming to Verifying to Done. -/
def Obligations.StatusOnlyAdvances : Prop :=
  ∀ s t : State, rstNow s = false → step s = .next t →
    statusOut t = statusOut s ∨ (statusOut s = 0b00#2 ∧ statusOut t = 0b01#2) ∨
    (statusOut s = 0b01#2 ∧ statusOut t = 0b10#2) ∨ (statusOut s = 0b10#2 ∧ statusOut t = 0b11#2)

/-- R239, R282: once in `C_DONE`, no number of ticks without a reset changes a register of the block, a byte of the device,
`SR` or the sink's list; only `SINK_VALID` has returned to 0 (R246). From a state with `SINK_VALID = 1`, which no run has in
`C_DONE`, the clause on the list is the model's reading: it has that event already (notes/assumptions/13). -/
def Obligations.DoneIsQuiescent : Prop :=
  ∀ (n : Nat) (s : State), configValid s.cfg = true → s.rst = [] → s.seq = .idle → s.drive = .controller →
    s.ctrl = .done →
    ∃ t, runFor n s = .next t ∧
      controlView t = controlView { s with sinkValid := if n = 0 then s.sinkValid else false } ∧
      statusOut t = 0b11#2 ∧ t.rdata = s.rdata ∧ t.sinkByte = s.sinkByte ∧ t.sr = s.sr ∧ t.sink = s.sink ∧
      ∀ a, memRead t.mem a = memRead s.mem a

/-- R240: `AC` is incremented without wrapping, and the address presented is `AC[15:0]`, which is `AC` itself. -/
def Obligations.AddressCounterNeverWraps : Prop :=
  ∀ s : State, Inv s → rstNow s = false → s.seq = .idle → s.drive = .controller →
    ((s.ctrl = .pDone ∨ s.ctrl = .vEmit) → ∃ t, step s = .next t ∧ t.ac.toNat = s.ac.toNat + 1) ∧
    ((s.ctrl = .pAddr ∧ s.ac.toNat < s.cfg.pEnd ∨ s.ctrl = .vAddr ∧ s.ac.toNat < s.cfg.vEnd) →
      ∃ t, step s = .next t ∧ t.areg = s.ac.extractLsb' 0 16 ∧ t.areg.toNat = s.ac.toNat)

/-- R246: an event emitted in a tick stands on the port in the next tick and in no other, with the kind's code; the address
and byte lines change for BYTE only; at most one event a tick, and the sink receives it. Two clauses are the model's: the
sink's list has the event from the same boundary as the port (notes/assumptions/13), and `SINK_KIND` keeps its value
while `SINK_VALID` is 0 (notes/assumptions/25). -/
def Obligations.EventPortCarriesEvents : Prop :=
  (eventKind .start = 0b00#2 ∧ eventKind .page = 0b01#2 ∧ eventKind .finish = 0b10#2 ∧
    ∀ a v, eventKind (.byte a v) = 0b11#2) ∧
  ∀ s t : State, step s = .next t →
    (t.sinkValid = false ∧ t.sink = s.sink ∧
      (rstNow s = false → t.sinkKind = s.sinkKind ∧ t.sinkAddr = s.sinkAddr ∧ t.sinkByte = s.sinkByte)) ∨
    (rstNow s = false ∧ ∃ e, t.sinkValid = true ∧ t.sink = s.sink ++ [e] ∧ t.sinkKind = eventKind e ∧
      (t.sinkAddr, t.sinkByte) = match e with
        | .byte a v => (a, v)
        | _ => (s.sinkAddr, s.sinkByte))

/-- R244: the block never compares what it reads with what it wrote: over any number of ticks, two states that differ only
in the device, the shift register, `RDATA` and what the sink was told run alike, in everything but those. -/
def Obligations.DeviceDataNeverSteers : Prop :=
  ∀ (n : Nat) (s s' : State), controlView s = controlView s' →
    (∃ t t', runFor n s = .next t ∧ runFor n s' = .next t' ∧ controlView t = controlView t') ∨
    ∃ r, runFor n s = .refused r ∧ runFor n s' = .refused r

/-! ### Whole runs -/

/-- R242: a run reaches `C_DONE` exactly `(1 + T_TURN) + nP*TP + (1 + T_TURN) + nV*TV + 1` ticks after the first tick after
reset. -/
def Obligations.RunLength : Prop :=
  ∀ s : State, RunStart s → ∀ n : Nat,
    n = (1 + s.cfg.tTurn) +
      (s.cfg.pEnd - s.cfg.pBegin) *
        (3 + 16 * (s.cfg.tSu + s.cfg.tHi) + s.cfg.tSettle + s.cfg.tWe + s.cfg.tHold) +
      (1 + s.cfg.tTurn) + (s.cfg.vEnd - s.cfg.vBegin) * (3 + 16 * (s.cfg.tSu + s.cfg.tHi) + s.cfg.tAcc) + 1 →
    (∀ k, k < n → ∃ u, runFor k s = .next u ∧ u.ctrl ≠ .done) ∧ ∃ t, runFor n s = .next t ∧ t.ctrl = .done

/-- R76: from the end of the Programming sweep on, at every tick of the run and after it, the device holds `ENC(a)` at
every programmed address (which `mod DEVICE_SIZE` leaves as it is) and its old contents elsewhere. -/
def Obligations.DeviceHoldsImage : Prop :=
  ∀ s : State, RunStart s → ∀ n : Nat,
    (1 + s.cfg.tTurn) +
      (s.cfg.pEnd - s.cfg.pBegin) *
        (3 + 16 * (s.cfg.tSu + s.cfg.tHi) + s.cfg.tSettle + s.cfg.tWe + s.cfg.tHold) ≤ n →
    ∃ t, runFor n s = .next t ∧
      (∀ a, s.cfg.pBegin ≤ a → a < s.cfg.pEnd →
        memRead t.mem (a % s.cfg.deviceSize) = enc s.cfg (BitVec.ofNat 16 a)) ∧
      ∀ a, a < s.cfg.deviceSize → (a < s.cfg.pBegin ∨ s.cfg.pEnd ≤ a) → memRead t.mem a = memRead s.mem a

/-- R243: the BYTE events of a run are, in ascending order over the verify range, `ENC(a)` for every address in the
programmed range and the device's previous contents for the others. -/
def Obligations.RoundTrip : Prop :=
  ∀ s : State, RunStart s →
    ∃ t, runFor (runTicks s.cfg) s = .next t ∧ byteEvents t.sink =
      (List.range' s.cfg.vBegin (s.cfg.vEnd - s.cfg.vBegin)).map fun a =>
        (BitVec.ofNat 16 a,
          if s.cfg.pBegin ≤ a ∧ a < s.cfg.pEnd then enc s.cfg (BitVec.ofNat 16 a) else memRead s.mem a)

/-- R249: the whole text of a run: the marker, one dot a page, the finish line, then each byte of the verify range in two
hex digits with its separator. -/
def Obligations.SinkText : Prop :=
  ∀ s : State, RunStart s →
    ∃ t, runFor (runTicks s.cfg) s = .next t ∧
      (byteEvents t.sink).map (fun e => e.1.toNat) = List.range' s.cfg.vBegin (s.cfg.vEnd - s.cfg.vBegin) ∧
      renderAll t.sink =
        ['P', 'r', 'o', 'g', 'r', 'a', 'm', 'm', 'i', 'n', 'g'] ++ List.replicate (nPages s.cfg) '.' ++
        ['\n', 'F', 'i', 'n', 'i', 's', 'h', 'e', 'd', '\n'] ++
        (byteEvents t.sink).flatMap fun e =>
          hex2 e.2 ++ [if (e.1.toNat + 1) % 16 = 0 then '\n' else ' ']

/-- R250: the number of pages of a range, and its value for a range from 0. -/
def Obligations.PageCount : Prop :=
  (∀ c : Config, nPages c =
    ((List.range' c.pBegin (c.pEnd - c.pBegin)).filter fun a => (a + 1) % c.pageSize = 0).length) ∧
  (∀ c : Config, c.pBegin = 0 → 1 ≤ c.pageSize → nPages c = c.pEnd / c.pageSize) ∧
  (∀ c : Config, c.pBegin = 0 → c.pageSize = 512 →
    (c.pEnd = 0x8000 → nPages c = 64) ∧ (c.pEnd = 0x2000 → nPages c = 16))

/-- R247, R248: the text of each event. -/
def Obligations.EventText : Prop :=
  render .start = "Programming".toList ∧ render .page = ['.'] ∧ render .finish = "\nFinished\n".toList ∧
  (∀ (a : Addr) (v : Byte), render (.byte a v) =
    ["0123456789abcdef".toList[v.toNat / 16]!, "0123456789abcdef".toList[v.toNat % 16]!,
      if (a.toNat + 1) % 16 = 0 then '\n' else ' '])
end

