-- ==== Sys2Proof/Tests/Slice0.lean ====
section
/-! SUPPORT. The model's own tests. Expected results come from the spec: its worked vectors (95_test_vectors.md: X, V, W, Q, F, T,
P, Z) and the encoding tables. Then, for every statement with hypotheses, a concrete state that meets them all. -/

namespace Sys2Proof.Tests

open Sys2Proof Sys2Proof.Machine

/-! ### Helpers -/

/-- A segment table with `SEG[5] = 0x19` and entry `d` otherwise `d`, a sign mark, and control word `0xABCDEF` at every
opcode and cycle (W11's hypothetical word). -/
def testCfg (v : Variant) : Config :=
  { Config.boot with
    variant := v
    seg := #v[0, 1, 2, 3, 4, 0x19, 6, 7, 8, 9, 10, 11, 12, 13, 14, 15]
    signMask := 0x40
    cw := Vector.replicate 64 (Vector.replicate 8 0xABCDEF#24) }

/-- A controller-driven state that writes the image byte of `a` in this tick. -/
def writing (v : Variant) (a : Nat) : State :=
  { State.reset with cfg := testCfg v, ctrl := .pData, ac := BitVec.ofNat 17 a, dir := true }

/-- A state with a test program. -/
def running (ws : List CmdWord) : State := { State.reset with cfg := testCfg .disp, drive := .program ws }

/-- A program state in write configuration, and one in read configuration. -/
def writeReady (ws : List CmdWord) : State := { running ws with dir := true }
def readReady (ws : List CmdWord) : State := { running ws with oeN := false }

/-- A property of the next state of a step. -/
def after (r : Result) (p : State → Bool) : Bool :=
  match r with
  | .next t => p t
  | _ => false

/-- Whether a result is this refusal. -/
def refusedBy (r : Result) (q : Refusal) : Bool :=
  match r with
  | .refused x => x == q
  | _ => false

/-! ### Well-formedness: one ill-formed term for each check -/

theorem test_wf_display_class_not_in_cs_build : (Instr.dispOct 0 5).wellFormed .cs = false := by decide
theorem test_wf_cs_class_not_in_display_build : (Instr.csBank0 0 0).wellFormed .disp = false := by decide
theorem test_wf_commands_in_both : (Instr.read 0).wellFormed .cs && (Instr.read 0).wellFormed .disp = true := by decide

-- Z3 and Z4 (R310): K1 is accepted, and each constraint refuses a configuration that breaks it.
theorem test_config_k1 : configValid (testCfg .disp) = true := by decide
theorem test_config_boot : configValid Config.boot = true := by decide
-- R11: the control-store build's defaults, and 5 ms of a 1 MHz clock (R315).
theorem test_config_cs_defaults :
    (Config.build .cs 3 1 3 1).pEnd = 0x2000 ∧ (Config.build .cs 3 1 3 1).vEnd = 0x2000 ∧
      configValid (Config.build .cs 3 1 3 1) = true ∧ Config.defaultSettle 1000000 = 5000 := by decide
theorem test_config_item1 : configValid { testCfg .disp with tAcc := 0, tAccD := 0 } = false := by decide
theorem test_config_item2 : configValid { testCfg .disp with tSettle := 2 } = false := by decide
theorem test_config_item3 : configValid { testCfg .disp with tTurn := 2 } = false := by decide
theorem test_config_item4 : configValid { testCfg .disp with tAccD := 2 } = false := by decide
theorem test_config_item5 : configValid { testCfg .disp with minWe := 2 } = false := by decide
theorem test_config_item6_range :
    configValid { testCfg .disp with deviceSize := 0x2000, pEnd := 0x2001, vEnd := 0 } = false := by decide
theorem test_config_item6_power : configValid { testCfg .disp with deviceSize := 0x8001 } = false := by decide
theorem test_config_item7 :
    configValid { testCfg .disp with seg := Vector.replicate 16 0x12#8 } = false := by decide
theorem test_config_dw : cfgDw (testCfg .disp) = 2 := by decide

/-! ### Decoding: a word of every row, bit by bit from R90, R91 and R97 -/

-- 0 0 | 11 | 1010 0000 0000 (V7)
theorem test_decode_oct : decodeDisp 0b0011101000000000#16 = .dispOct 3 0xA00 := by decide
-- 0 1 | 00 | 1111 1111 1011 (V30)
theorem test_decode_dec0 : decodeDisp 0b0100111111111011#16 = .dispDec0 0xFFB := by decide
-- 0 1 | 01 | 0000 0000 1010 (V15)
theorem test_decode_dec1 : decodeDisp 0b0101000000001010#16 = .dispDec1 0x00A := by decide
-- 0 1 | 10 | 0011 1110 0111 (V20)
theorem test_decode_dec2 : decodeDisp 0b0110001111100111#16 = .dispDec2 0x3E7 := by decide
-- 0 1 | 11 | 0011 1110 1000 (V22)
theorem test_decode_dec3 : decodeDisp 0b0111001111101000#16 = .dispDec3 0x3E8 := by decide
-- 1 | 100 0000 0000 0111 (V42)
theorem test_decode_guard : decodeDisp 0b1100000000000111#16 = .dispGuard 0x4007 := by decide
-- 00000 | 00 | 000 | 111111 (W4)
theorem test_decode_bank0 : decodeCs 0b0000000000111111#16 = .csBank0 0 63 := by decide
-- 00000 | 01 | 011 | 100101 (W11)
theorem test_decode_bank1 : decodeCs 0b0000001011100101#16 = .csBank1 3 0x25 := by decide
-- 00000 | 10 | 001 | 111111 (W6)
theorem test_decode_bank2 : decodeCs 0b0000010001111111#16 = .csBank2 1 63 := by decide
-- 00000 | 11 | 111 | 111111 (W13)
theorem test_decode_bank3 : decodeCs 0b0000011111111111#16 = .csBank3 7 63 := by decide
-- 00001 | 111 1111 1111 (W15)
theorem test_decode_oor11 : decodeCs 0b0000111111111111#16 = .csOor11 0x7FF := by decide
-- 0001 | 1111 1111 1111 (W17)
theorem test_decode_oor12 : decodeCs 0b0001111111111111#16 = .csOor12 0xFFF := by decide
-- 001 | 0 0000 0000 0000 (W18)
theorem test_decode_oor13 : decodeCs 0b0010000000000000#16 = .csOor13 0 := by decide
-- 01 | 00 0000 0000 0001 (the class of W19)
theorem test_decode_oor14 : decodeCs 0b0100000000000001#16 = .csOor14 1 := by decide
-- 1 | 111 1111 1111 1111 (W20)
theorem test_decode_oor15 : decodeCs 0b1111111111111111#16 = .csOor15 0x7FFF := by decide
-- Q1 to Q8
theorem test_decode_none : decodeCmd 0x00000#19 = .instr (.cmdNone 0) := by decide
theorem test_decode_present : decodeCmd 0b0011010010111000011#19 = .instr (.present 0xA5C3) := by decide
theorem test_decode_write : decodeCmd 0b0101111111100011001#19 = .instr (.write 0xFF 0x19) := by decide
theorem test_decode_read : decodeCmd 0x30000#19 = .instr (.read 0) := by decide
theorem test_decode_turn_read : decodeCmd 0x40000#19 = .instr (.turnRead 0) := by decide
theorem test_decode_turn_write : decodeCmd 0x50000#19 = .instr (.turnWrite 0) := by decide
theorem test_decode_reserved : decodeCmd 0x60000#19 = .reservedCommand 6 ∧ decodeCmd 0x7FFFF#19 = .reservedCommand 7 := by
  decide
theorem test_decode_table_words :
    decodeTableWord 16 0x0000 = some (.csBank0 0 0) ∧ decodeTableWord 16 0x4000 = some (.dispDec0 0) ∧
    decodeTableWord 24 0x50000 = some (.turnWrite 0) ∧ decodeTableWord 24 0x60000 = none := by decide

/-! ### One step of each instruction -/

-- V4, V6: octal digits of slot 1 and slot 3.
theorem test_oct_slot1 : after (step (writing .disp 0x1028)) (fun t => t.dOut == 0x19) = true := by decide
theorem test_oct_slot3 : after (step (writing .disp 0x3FFF)) (fun t => t.dOut == 7 && t.seq == .wrSettle) = true := by decide
-- V35 (-2048), V9 (zero has no mark).
theorem test_dec0_min : after (step (writing .disp 0x4800)) (fun t => t.dOut == 8 ^^^ 0x40) = true := by decide
theorem test_dec0_zero : after (step (writing .disp 0x4000)) (fun t => t.dOut == 0) = true := by decide
-- V15 and V13: the threshold is 10.
theorem test_dec1_ten : after (step (writing .disp 0x500A)) (fun t => t.dOut == 1) = true := by decide
theorem test_dec1_nine : after (step (writing .disp 0x5009)) (fun t => t.dOut == 0xFF) = true := by decide
-- V20, V33 (an inner zero of -1000).
theorem test_dec2_999 : after (step (writing .disp 0x63E7)) (fun t => t.dOut == 9) = true := by decide
theorem test_dec2_inner_zero : after (step (writing .disp 0x6C18)) (fun t => t.dOut == 0) = true := by decide
-- V38, V21.
theorem test_dec3_2048 : after (step (writing .disp 0x7800)) (fun t => t.dOut == 2) = true := by decide
theorem test_dec3_999 : after (step (writing .disp 0x73E7)) (fun t => t.dOut == 0xFF) = true := by decide
-- V42.
theorem test_guard : after (step (writing .disp 0xC007)) (fun t => t.dOut == 0xFF && t.ctrl == .pDone) = true := by decide
-- W11: byte 0, 1, 2 of 0xABCDEF.
theorem test_bank0 : after (step (writing .cs 0x00E5)) (fun t => t.dOut == 0xEF) = true := by decide
theorem test_bank1 : after (step (writing .cs 0x02E5)) (fun t => t.dOut == 0xCD) = true := by decide
theorem test_bank2 : after (step (writing .cs 0x04E5)) (fun t => t.dOut == 0xAB) = true := by decide
-- W12, W14, W16, W18, W19, W20.
theorem test_bank3 : after (step (writing .cs 0x0600)) (fun t => t.dOut == 0 && t.seq == .wrSettle) = true := by decide
theorem test_oor11 : after (step (writing .cs 0x0800)) (fun t => t.dOut == 0 && t.seq == .wrSettle) = true := by decide
theorem test_oor12 : after (step (writing .cs 0x1000)) (fun t => t.dOut == 0 && t.seq == .wrSettle) = true := by decide
theorem test_oor13 : after (step (writing .cs 0x2000)) (fun t => t.dOut == 0 && t.seq == .wrSettle) = true := by decide
theorem test_oor14 : after (step (writing .cs 0x4000)) (fun t => t.dOut == 0 && t.seq == .wrSettle) = true := by decide
theorem test_oor15 : after (step (writing .cs 0xFFFF)) (fun t => t.dOut == 0 && t.seq == .wrSettle) = true := by decide
-- Q1: NONE takes one tick and leaves the sequencer idle.
theorem test_none : after (step (running [0x00000])) (fun t => t.seq == .idle && t.drive == .program []) = true := by decide
-- Q9, tick t: AREG <- 0xA5C3, BI <- 15, SER_DATA <- 1; then its rising edge shifts a 1 in.
theorem test_present_accept :
    after (step (running [0x1A5C3])) (fun t => t.areg == 0xA5C3 && t.bi == 15 && t.serData && t.seq == .shSetup) = true := by
  decide
theorem test_present_edge :
    after (step { running [] with seq := .shSetup, dc := 1, serData := true, sr := 0x4001 })
      (fun t => t.serClk && t.sr == 0x8003 && t.seq == .shHigh) = true := by decide
-- Q10: the rising edge of WE_N stores the byte; Q15: refused right after reset.
theorem test_write_edge :
    after (step { writeReady [] with seq := .wrLow, dc := 1, weN := false, dOut := 0x19, latAddr := 5 })
      (fun t => t.mem == [(5, 0x19)] && t.busy == 3 && t.weN) = true := by decide
theorem test_write_refused_after_reset : refusedBy (step (running [0x20019])) .writeDirection = true := by decide
-- Q11: the sample; Q15: refused right after reset.
theorem test_read_sample :
    after (step { readReady [] with seq := .rdWait, dc := 1, sr := 0x8005, mem := [(5, 0x19)] })
      (fun t => t.rdata == 0x19 && t.seq == .idle) = true := by decide
theorem test_read_refused_after_reset : refusedBy (step (running [0x30000])) .readDirection = true := by decide
-- Q13 and Q14: first and last tick.
theorem test_turn_read_accept : after (step (writeReady [0x40000])) (fun t => !t.dir && t.oeN && t.dc == 3) = true := by
  decide
theorem test_turn_read_exit : after (step { running [] with seq := .turnR, dc := 1 }) (fun t => !t.oeN) = true := by decide
theorem test_turn_write_accept : after (step (readReady [0x50000])) (fun t => t.oeN && !t.dir) = true := by decide
theorem test_turn_write_exit : after (step { running [] with seq := .turnW, dc := 1 }) (fun t => t.dir) = true := by decide
-- Q8.
theorem test_reserved_refused : refusedBy (step (running [0x60000])) (.reservedCommand 6) = true := by decide

/-! ### Controller, event port, reset, device, rendering -/

-- F8: START stands on the port in the tick after `C_IDLE`.
theorem test_start_event :
    after (step State.reset) (fun t => t.sinkValid && t.sinkKind == 0 && t.sink == [.start] && t.ctrl == .pAddr) = true := by
  decide
-- F3: the PAGE event after the write of 0x1FF.
theorem test_page_event :
    after (step { writing .disp 0x1FF with ctrl := .pDone }) (fun t => t.sink == [.page] && t.ac == 0x200) = true := by decide
theorem test_byte_event :
    after (step { writing .disp 0x7FFF with ctrl := .vEmit, rdata := 0xAB })
      (fun t => eventPort t == 0b11#2 ++ 0x7FFF#16 ++ 0xAB#8 && t.ac == 0x8000) = true := by decide
-- Z1: reset inside a PRESENT keeps SR; Z2: reset in `S_WR_LOW` touches LAT_ADDR only.
theorem test_reset_in_present :
    after (step { running [] with seq := .shHigh, dc := 1, serClk := true, sr := 0x0123, rst := [true] })
      (fun t => t.sr == 0x0123 && t.seq == .idle && t.mem == []) = true := by decide
theorem test_reset_in_write :
    after (step { writeReady [] with seq := .wrLow, dc := 1, weN := false, latAddr := 5, mem := [(4, 1)], rst := [true] })
      (fun t => t.weN && !t.dir && t.mem.map (fun x => x.1) == [4, 5] && memFind t.mem 4 == some 1) = true := by decide
-- P3: 0x2005 reaches device address 0x0005 of an 8 KiB device.
theorem test_alias : devAddr { testCfg .cs with deviceSize := 0x2000 } 0x2005 = 5 := by decide
-- R295.
theorem test_blocked_device :
    after (step { writeReady [] with
      cfg := { testCfg .disp with devWritable := false }, seq := .wrLow, dc := 1, weN := false, latAddr := 5 })
      (fun t => t.mem == []) = true := by decide
-- T3 to T8.
theorem test_render_byte : render (.byte 0x000E 0xAB) = ['a', 'b', ' '] ∧ render (.byte 0x000F 0xAB) = ['a', 'b', '\n'] := by
  decide
theorem test_render_zero_padded : render (.byte 0x0000 0x0A) = ['0', 'a', ' '] := by decide
-- F1, F2, F7.
theorem test_run_ticks :
    runTicks { testCfg .disp with pEnd := 0, vEnd := 0 } = 9 ∧ runTicks { testCfg .disp with pEnd := 1, vEnd := 0 } = 49 ∧
    runTicks { testCfg .cs with deviceSize := 0x2000, pEnd := 0x2000, vEnd := 0x2000 } = 622601 := by decide
-- The host's placement: the next step runs the word's instruction.
theorem test_fetch_address :
    after (step (State.reset.withFetchWord 16 0x5005)) (fun t => t.dOut == 0xFF && t.ctrl == .pDone) = true := by decide
theorem test_fetch_command : after (step (State.reset.withFetchWord 24 0x10005)) (fun t => t.areg == 5) = true := by decide

/-! ### Witnesses: the hypotheses of each statement are met -/

/-- A lawful control-word table: every opcode has the two fetch words and one execute word with the end marker. -/
def lawfulCfg : Config :=
  { testCfg .cs with
    cw := Vector.replicate 64 #v[0x000003, 0x000100, 0x800000, 0, 0, 0, 0, 0]
    len := Vector.replicate 64 3
    fetch1 := 0x000100
    sigPcOut := 0, sigMarIn := 1, sigEnd := 23, sigOther := [8]
    rsvOps := [0x3C], nopOp := #v[0x38, 0x39, 0x3A, 0x3B] }

theorem lawfulCfg_cwAt (op : BitVec 6) (cyc : BitVec 3) :
    cwAt lawfulCfg op cyc = (#v[0x000003, 0x000100, 0x800000, 0, 0, 0, 0, 0] : Vector CtlWord 8)[cyc.toNat] := by
  simp [cwAt, lawfulCfg]

theorem lawfulCfg_lenAt (op : BitVec 6) : lenAt lawfulCfg op = 3 := by simp [lenAt, lawfulCfg]

theorem test_laws_len : cwLen lawfulCfg := fun op => by simp [lawfulCfg_lenAt]
theorem test_laws_zero : cwZero lawfulCfg := fun op cyc h => by
  rw [lawfulCfg_lenAt] at h
  rw [lawfulCfg_cwAt]
  revert cyc
  decide
theorem test_laws_fetch : cwFetch lawfulCfg := fun op => by
  rw [lawfulCfg_cwAt, lawfulCfg_cwAt]
  decide
theorem test_laws_end : cwEnd lawfulCfg := fun op cyc => by
  rw [lawfulCfg_cwAt, lawfulCfg_lenAt]
  revert cyc
  decide
theorem test_laws_reserved : cwReserved lawfulCfg ∧ (0x3C#6) ∈ lawfulCfg.rsvOps :=
  ⟨⟨by decide, fun op _ => ⟨by simp [lawfulCfg_lenAt], fun cyc => by simp [lawfulCfg_cwAt]⟩⟩, by decide⟩
theorem test_laws_opcode : cwOpcode lawfulCfg := by
  refine ⟨⟨0xE#4, by decide⟩, fun ib am am' cyc cyc' h h' => ?_⟩
  clear h h'
  simp only [cycleRole, lawfulCfg_cwAt, lawfulCfg_lenAt]
  revert ib am am' cyc cyc'
  decide

/-- A table with one reserved slot, 0x3C, in a base whose own execute word is not NOP's (base 14 is NOP's). -/
def loneWord (op : BitVec 6) : CtlWord := if baseOf op = 14#4 ∨ op = 0x3C#6 then 0x800000 else 0x810000
def loneCfg : Config :=
  { lawfulCfg with
    cw := Vector.ofFn fun op =>
      if op.val % 4 = 2 then #v[3, 0x000100, loneWord (BitVec.ofNat 6 op.val), 0, 0, 0, 0, 0]
      else #v[3, 0x000100, 0x000200, loneWord (BitVec.ofNat 6 op.val), 0, 0, 0, 0]
    len := Vector.ofFn fun op => if op.val % 4 = 2 then 3 else 4 }

theorem loneCfg_execute (op : BitVec 6) (cyc : BitVec 3) (h : cycleRole loneCfg op cyc = .execute) :
    cwAt loneCfg op cyc = loneWord op := by
  revert op cyc
  decide
theorem test_lone_opcode : cwOpcode loneCfg := by
  refine ⟨⟨0xE#4, by decide⟩, fun ib am am' cyc cyc' h h' hc hc' _ => ?_⟩
  rw [loneCfg_execute _ _ hc, loneCfg_execute _ _ hc']
  simp only [show loneCfg.rsvOps = [0x3C] from rfl, List.mem_singleton] at h h'
  simp only [loneWord, baseOf_opcodeOf, show opcodeOf ib am ≠ 0x3C#6 from h, show opcodeOf ib am' ≠ 0x3C#6 from h', or_false]
theorem test_lone_reserved : cwReserved loneCfg := by
  refine ⟨by decide, fun op h => ?_⟩
  simp only [show loneCfg.rsvOps = [0x3C] from rfl, List.mem_singleton] at h
  subst h
  decide
theorem test_lone_base_keeps_its_words : loneWord (nopFor loneCfg 0x3C) ≠ loneWord 0x3D := by decide
theorem test_laws_signals : sigPosInjective lawfulCfg := by
  unfold sigPosInjective
  decide
theorem test_witness_table_laws_beyond : lenAt lawfulCfg 0 ≤ (3#3).toNat ∧ lenAt lawfulCfg 0 ≠ 8 := by
  simp [lawfulCfg_lenAt]
-- Law CW.mode: cycle 2 is an addressing step but in immediate mode.
theorem test_cycle_role :
    cycleRole lawfulCfg 0 2 = .addressing ∧ cycleRole lawfulCfg 2 2 = .execute ∧ cycleRole lawfulCfg 0 3 = .beyond := by
  simp [cycleRole, lawfulCfg_lenAt, addrMode, modeOf, field]

/-- Parts of a state of the invariant: a write pulse's last low tick, under a test program. -/
def pulseState : State := { writeReady [] with seq := .wrLow, dc := 1, weN := false, dOut := 0x19, latAddr := 5 }
/-- The last tick of a settle, of a read wait, of a shift set-up. -/
def settleState : State := { writeReady [] with seq := .wrSettle, dc := 1, sr := 5 }
def sampleState : State := { readReady [] with seq := .rdWait, dc := 1, sr := 5 }
def shiftState : State := { running [] with seq := .shSetup, dc := 1, serData := true }

theorem test_inv_pulse : Inv pulseState :=
  ⟨by decide, by decide, by decide, by decide, by decide, by decide, by decide, by decide, fun h => nomatch h⟩
theorem test_inv_settle : Inv settleState :=
  ⟨by decide, by decide, by decide, by decide, by decide, by decide, by decide, by decide, fun h => nomatch h⟩
theorem test_inv_sample : Inv sampleState :=
  ⟨by decide, by decide, by decide, by decide, by decide, by decide, by decide, by decide, fun h => nomatch h⟩
theorem test_inv_shift : Inv shiftState :=
  ⟨by decide, by decide, by decide, by decide, by decide, by decide, by decide, by decide, fun h => nomatch h⟩

-- The step of an invariant state answers a next state, so the statements about it are not empty.
theorem test_witness_step_keeps_invariant : ∃ t, Inv pulseState ∧ step pulseState = .next t :=
  ⟨_, test_inv_pulse, rfl⟩
theorem test_witness_bus_never_contended : ∃ t, Inv pulseState ∧ runFor 1 pulseState = .next t :=
  ⟨_, test_inv_pulse, rfl⟩
theorem test_witness_shifts_only_with_write_disabled : ∃ t, Inv shiftState ∧ step shiftState = .next t ∧ t.sr ≠ shiftState.sr :=
  ⟨_, test_inv_shift, rfl, by decide⟩
theorem test_witness_write_pulses_fall :
    ∃ t, Inv settleState ∧ rstNow settleState = false ∧ step settleState = .next t ∧ settleState.weN = true ∧ t.weN = false :=
  ⟨_, test_inv_settle, rfl, rfl, rfl, rfl⟩
theorem test_witness_write_pulses_rise :
    ∃ t, Inv pulseState ∧ rstNow pulseState = false ∧ step pulseState = .next t ∧ pulseState.weN = false ∧ t.weN = true :=
  ⟨_, test_inv_pulse, rfl, rfl, rfl, rfl⟩
theorem test_witness_samples : Inv sampleState ∧ rstNow sampleState = false ∧ sampleState.seq = .rdWait ∧ sampleState.dc = 1 :=
  ⟨test_inv_sample, rfl, rfl, rfl⟩
theorem test_witness_configuration_never_changes : ∃ t, step pulseState = .next t := ⟨_, rfl⟩
theorem test_witness_device_write_cycle :
    ∃ t, step pulseState = .next t ∧ rstNow pulseState = false ∧ pulseState.pulseBad = false ∧ pulseState.oeN = true ∧
      pulseState.cfg.devWritable = true ∧ pulseState.weN = false ∧ t.weN = true := ⟨_, rfl, rfl, rfl, rfl, rfl, rfl, rfl⟩
theorem test_witness_device_write_cycle_falls :
    ∃ t, step settleState = .next t ∧ rstNow settleState = false ∧ settleState.pulseBad = false ∧ settleState.oeN = true ∧
      settleState.cfg.devWritable = true ∧ settleState.weN = true ∧ t.weN = false := ⟨_, rfl, rfl, rfl, rfl, rfl, rfl, rfl⟩
theorem test_witness_violation_fall :
    ∃ t, step { settleState with busy := 1 } = .next t ∧ t.weN = false ∧ t.cfg.devWritable = true := ⟨_, rfl, rfl, rfl⟩
theorem test_witness_violation_rise :
    ∃ t, step { pulseState with oeN := false } = .next t ∧ t.weN = true ∧ t.cfg.devWritable = true := ⟨_, rfl, rfl, rfl⟩
theorem test_witness_busy_bus : (running []).dir = false ∧ 0 < ({ running [] with busy := 1 } : State).busy := by decide
theorem test_witness_shift_register :
    ∃ t, step shiftState = .next t ∧ shiftState.serClk = false ∧ t.serClk = true := ⟨_, rfl, rfl, rfl⟩
theorem test_witness_device_changes_edges :
    ∃ t, step { pulseState with cfg := { testCfg .disp with devWritable := false } } = .next t := ⟨_, rfl⟩
theorem test_witness_device_quiet : ∃ t, step sampleState = .next t ∧ t.weN = sampleState.weN := ⟨_, rfl, rfl⟩

-- Resets: with and without a write in progress.
theorem test_witness_reset_quiet :
    configValid { sampleState with rst := [true] }.cfg = true ∧ rstNow { sampleState with rst := [true] } = true ∧
      sampleState.weN = true ∧ sampleState.cfg.devWritable = true := by decide
theorem test_witness_reset_in_write :
    configValid { pulseState with rst := [true] }.cfg = true ∧ rstNow { pulseState with rst := [true] } = true ∧
      pulseState.weN = false ∧ pulseState.cfg.devWritable = true := by decide
theorem test_witness_configuration_refused :
    configValid { State.reset with cfg := { testCfg .disp with tSettle := 2 } }.cfg = false := by decide

-- Accepted instructions, by a test program.
theorem test_witness_present : Accepts (running [0x1A5C3]) (.present 0xA5C3) := ⟨by decide, rfl, rfl, by decide⟩
theorem test_witness_write :
    Accepts (writeReady [0x2FF19]) (.write 0xFF 0x19) ∧ (writeReady [0x2FF19]).dir = true ∧
      (writeReady [0x2FF19]).oeN = true ∧ (writeReady [0x2FF19]).weN = true ∧
      (writeReady [0x2FF19]).busy ≤ (writeReady [0x2FF19]).cfg.tSettle ∧
      (writeReady [0x2FF19]).cfg.devWritable = true :=
  ⟨⟨by decide, rfl, rfl, by decide⟩, rfl, rfl, rfl, by decide, rfl⟩
theorem test_witness_encoder_class :
    configValid (writing .cs 0x47F).cfg = true ∧ (writing .cs 0x47F).rst = [] ∧ (writing .cs 0x47F).seq = .idle ∧
      (writing .cs 0x47F).drive = .controller ∧ (writing .cs 0x47F).ctrl = .pData ∧ (writing .cs 0x47F).dir = true ∧
      (writing .cs 0x47F).oeN = true ∧ (writing .cs 0x47F).weN = true ∧ (writing .cs 0x47F).busy ≤ 3 ∧
      (writing .cs 0x47F).cfg.devWritable = true := by decide
theorem test_witness_read :
    Accepts (readReady [0x30000]) (.read 0) ∧ (readReady [0x30000]).dir = false ∧ (readReady [0x30000]).oeN = false ∧
      (readReady [0x30000]).weN = true ∧ (readReady [0x30000]).busy ≤ (readReady [0x30000]).cfg.tAcc ∧
      (readReady [0x30000]).accWait ≤ (readReady [0x30000]).cfg.tAcc :=
  ⟨⟨by decide, rfl, rfl, by decide⟩, rfl, rfl, rfl, by decide, by decide⟩
theorem test_witness_turn_read : Accepts (writeReady [0x40000]) (.turnRead 0) := ⟨by decide, rfl, rfl, by decide⟩
theorem test_witness_turn_write : Accepts (running [0x50000]) (.turnWrite 0) := ⟨by decide, rfl, rfl, by decide⟩
theorem test_witness_instruction_ticks :
    ∃ u, Accepts (running [0x1A5C3]) (.present 0xA5C3) ∧ step (running [0x1A5C3]) = .next u :=
  ⟨_, test_witness_present, rfl⟩
theorem test_witness_instruction_ticks_class :
    ∃ u, Accepts (writing .disp 0x5005) (.dispDec1 5) ∧ step (writing .disp 0x5005) = .next u :=
  ⟨_, ⟨by decide, rfl, rfl, by decide⟩, rfl⟩
theorem test_witness_step_runs :
    configValid (running [0x1A5C3]).cfg = true ∧ rstNow (running [0x1A5C3]) = false ∧ (running [0x1A5C3]).seq = .idle ∧
      portDecoded (running [0x1A5C3]) = .instr (.present 0xA5C3) ∧
      (Instr.present 0xA5C3).wellFormed (running [0x1A5C3]).cfg.variant = true := by decide
theorem test_witness_wrong_direction :
    (running [0x20019]).drive = .program [0x20019] ∧ (running []).dir = false ∧ (running []).oeN = true := by decide
theorem test_witness_wrong_direction_write :
    configValid pulseState.cfg = true ∧ rstNow { pulseState with dir := false } = false ∧ pulseState.seq = .wrLow ∧
      pulseState.weN = false ∧ pulseState.dc = 1 ∧ pulseState.cfg.devWritable = true ∧
      ({ pulseState with dir := false } : State).dir = false := by decide
theorem test_witness_wrong_direction_read :
    configValid sampleState.cfg = true ∧ rstNow { sampleState with dir := true, oeN := true } = false ∧
      sampleState.seq = .rdWait ∧ sampleState.dc = 1 ∧ ({ sampleState with dir := true } : State).dir = true := by decide
-- R212: with `DIR = 1` the sample is a free value, and a tick's free values are used up.
theorem test_read_wrong_direction :
    ∃ t, step { sampleState with dir := true, oeN := true, draws := 6 } = .next t ∧ t.rdata = Config.freeByte 6 ∧
      t.draws = 9 := ⟨_, rfl, rfl, rfl⟩
-- R194, R231: the controller drives NONE while the sequencer is busy.
theorem test_busy_controller_drives_none :
    controllerWord { State.reset with ctrl := .pAddr, seq := .turnW, dc := 2 } = 0#19 ∧
      controllerWord { State.reset with ctrl := .pAddr } = 0x10000#19 := by decide
theorem test_witness_acceptance_direction :
    (writeReady []).dir = true ∧ (writeReady []).oeN = true ∧ (readReady []).dir = false ∧ (readReady []).oeN = false := by
  decide
theorem test_witness_ignored_bits :
    rstNow (writeReady []) = false ∧ (writeReady []).seq = .idle ∧ field 0x2FF19#19 16 3 = field 0x20019#19 16 3 ∧
      field 0x2FF19#19 0 8 = field 0x20019#19 0 8 ∧ field 0x2FF19#19 16 3 = 2#3 := by decide
theorem test_witness_reserved :
    configValid (running [0x60000]).cfg = true ∧ rstNow (running [0x60000]) = false ∧ (running [0x60000]).seq = .idle ∧
      (running [0x60000]).drive = .program [0x60000] ∧ field 0x60000#19 16 3 = 6#3 ∧ field 0x7FFFF#19 16 3 = 7#3 := by decide
theorem test_witness_instruction_frame : ∃ t, exec (.turnRead 0) (writeReady []) = .next t := ⟨_, rfl⟩
theorem test_witness_data_lines :
    ∃ t, exec (.write 0 0x19) (writeReady []) = .next t ∧ configValid sampleState.cfg = true ∧
      rstNow sampleState = false ∧ sampleState.seq = .rdWait ∧ sampleState.dc = 1 ∧ sampleState.dir = false :=
  ⟨_, rfl, by decide, rfl, rfl, rfl, rfl⟩
theorem test_witness_busy_tick :
    configValid pulseState.cfg = true ∧ rstNow pulseState = false ∧ pulseState.seq ≠ .idle ∧ pulseState.rst = [] ∧
      1 ≤ pulseState.dc := by decide

-- The controller.
theorem test_witness_controller :
    configValid (writing .disp 7).cfg = true ∧ rstNow (writing .disp 7) = false ∧ (writing .disp 7).seq = .idle ∧
      (writing .disp 7).drive = .controller := by decide
/-- A controller tick with the sequencer idle, under a device of 0x2000 bytes swept from 0x10 to 0x20 both ways. -/
def sweeping (q : Ctrl) (a : Nat) : State :=
  { State.reset with
    cfg := { testCfg .cs with deviceSize := 0x2000, pBegin := 0x10, pEnd := 0x20, vBegin := 0x10, vEnd := 0x20, pageSize := 16 }
    ctrl := q, ac := BitVec.ofNat 17 a }

theorem test_witness_transition_rows :
    configValid (sweeping .idle 0).cfg = true ∧ rstNow (sweeping .idle 0) = false ∧ (sweeping .idle 0).seq = .idle ∧
      (sweeping .idle 0).drive = .controller := by decide
-- R241, the rows whose condition is at a boundary: AC just below and at P_END and V_END, and at the end of a page.
theorem test_row_p_addr_below :
    after (step (sweeping .pAddr 0x1F)) (fun t => t.ctrl == .pData && t.ac == 0x1F && t.seq == .shSetup && t.sink == []) = true := by
  decide
theorem test_row_p_addr_at_end :
    after (step (sweeping .pAddr 0x20)) (fun t => t.ctrl == .vAddr && t.ac == 0x10 && t.seq == .turnR && t.sink == [.finish]) = true := by
  decide
theorem test_row_p_done_page :
    after (step (sweeping .pDone 0x1F)) (fun t => t.ctrl == .pAddr && t.ac == 0x20 && t.sink == [.page]) = true ∧
    after (step (sweeping .pDone 0x1E)) (fun t => t.ctrl == .pAddr && t.ac == 0x1F && t.sink == []) = true := by decide
theorem test_row_v_addr_below :
    after (step (sweeping .vAddr 0x1F)) (fun t => t.ctrl == .vRead && t.ac == 0x1F && t.seq == .shSetup) = true := by decide
theorem test_row_v_addr_at_end :
    after (step (sweeping .vAddr 0x20)) (fun t => t.ctrl == .done && t.ac == 0x20 && t.seq == .idle && t.sink == []) = true := by
  decide
theorem test_row_v_read_emit_done :
    after (step (sweeping .vRead 0x1F)) (fun t => t.ctrl == .vEmit && t.seq == .rdWait) = true ∧
    after (step (sweeping .vEmit 0x1F)) (fun t => t.ctrl == .vAddr && t.ac == 0x20 && t.sink == [.byte 0x1F 0]) = true ∧
    after (step (sweeping .done 0x20)) (fun t => t.ctrl == .done && t.ac == 0x20 && t.sink == []) = true := by decide
theorem test_witness_status : ∃ t, rstNow State.reset = false ∧ step State.reset = .next t := ⟨_, rfl, rfl⟩
theorem test_witness_event_port : ∃ t, step State.reset = .next t ∧ t.sinkValid = true := ⟨_, rfl, rfl⟩

/-- `C_DONE` in read configuration. -/
def doneState : State := { readReady [] with drive := .controller, ctrl := .done }

theorem test_witness_done :
    configValid doneState.cfg = true ∧ doneState.rst = [] ∧ doneState.seq = .idle ∧ doneState.drive = .controller ∧
      doneState.ctrl = .done := by decide

theorem test_inv_p_done : Inv { writing .disp 0x7FFF with ctrl := .pDone } :=
  ⟨by decide, by decide, by decide, by decide, by decide, by decide, by decide, by decide,
    fun _ => ⟨by decide, by decide, by decide⟩⟩
theorem test_inv_p_addr : Inv { writing .disp 0x7FFF with ctrl := .pAddr } :=
  ⟨by decide, by decide, by decide, by decide, by decide, by decide, by decide, by decide,
    fun _ => ⟨by decide, by decide, by decide⟩⟩
theorem test_witness_address_counter_clauses :
    rstNow (writing .disp 0x7FFF) = false ∧ (writing .disp 0x7FFF).seq = .idle ∧
      (writing .disp 0x7FFF).drive = .controller ∧
      (writing .disp 0x7FFF).ac.toNat < (writing .disp 0x7FFF).cfg.pEnd := by decide
theorem test_witness_device_data :
    controlView (writing .disp 7) = controlView { writing .disp 7 with rdata := 9, mem := [(7, 1)], sr := 3, busy := 2 } :=
  rfl

-- The start of a run, over a range of the image.
theorem test_witness_run_start :
    RunStart { State.reset with cfg := { testCfg .cs with deviceSize := 0x2000, pBegin := 0x7F8, pEnd := 0x808, vBegin := 0x7F8, vEnd := 0x808 } } :=
  ⟨by decide, rfl, rfl, by decide, rfl, by decide, by decide, rfl⟩

-- Encoders.
theorem test_witness_octal :
    (0x1028#16).toNat < 0x4000 ∧ (0x1E2F#16).toNat < 0x4000 ∧ field 0x1028#16 12 2 = field 0x1E2F#16 12 2 ∧
      field 0x1028#16 (3 * (field 0x1028#16 12 2).toNat) 3 = field 0x1E2F#16 (3 * (field 0x1028#16 12 2).toNat) 3 := by decide
theorem test_witness_leading_zero :
    (1#2) ≠ 0#2 ∧ (9#12).toInt.natAbs < 10 ^ (1#2).toNat ∧ 10 ^ (1#2).toNat ≤ (10#12).toInt.natAbs ∧
      ∀ d : Fin 10, (testCfg .disp).seg[d.val] ≠ 0xFF#8 := by decide
theorem test_witness_recombine : (0x00E5#16) = csAddr 0#2 3#3 0x25#6 := by decide
theorem test_witness_wiring : configValid (testCfg .cs) = true ∧ (0x8005#16).toNat % 0x8000 = (0x0005#16).toNat % 0x8000 := by
  decide
theorem test_witness_page_count : (testCfg .disp).pBegin = 0 ∧ (testCfg .disp).pageSize = 512 ∧ (testCfg .disp).pEnd = 0x8000 := by
  decide
theorem test_witness_encode_of_decode : decode (.cmd19 0x20019#19) = .instr (.write 0 0x19) := by decide

end Sys2Proof.Tests
end

section
/-! PROOFS. The configuration along a tick: each of the three kinds of tick leaves it as it is (spec/00_scope.md R12,
spec/10_state.md R33). -/

namespace Sys2Proof.Proofs

open Sys2Proof Sys2Proof.Machine

/-- The meaning of every instruction is an update of the block's registers only (R12). -/
theorem exec_next_cfg {i : Instr} {s t : State} (h : exec i s = .next t) : t.cfg = s.cfg := by
  rcases exec_next h with rfl | ⟨b, rfl⟩ | ⟨a, rfl⟩ | rfl | rfl | rfl
  case inl => rfl
  case inr.inl => exact acceptWrite_cfg b s
  all_goals exact enter_cfg ..

@[simp] theorem acceptState_cfg (s : State) : (acceptState s).cfg = s.cfg := (acceptState_frame s).1

@[simp] theorem seqStep_cfg (d : Byte) (s : State) : (seqStep d s).cfg = s.cfg := (seqStep_frame d s).1

@[simp] theorem resetTick_cfg (s : State) : (resetTick s).cfg = s.cfg := by simp [resetTick]

@[simp] theorem busyTick_cfg (s : State) : (busyTick s).cfg = s.cfg := by simp [busyTick]

/-- Settles O6, by the three kinds of tick. -/
theorem configurationNeverChanges : Obligations.ConfigurationNeverChanges := by
  intro s t h
  obtain ⟨-, ⟨-, rfl⟩ | ⟨-, -, i, u, -, hexec, rfl⟩ | ⟨-, -, rfl⟩⟩ := step_next h
  case inl => exact resetTick_cfg s
  case inr.inl =>
    calc (envStep false s u).cfg = u.cfg := envStep_cfg ..
      _ = (acceptState s).cfg := exec_next_cfg hexec
      _ = s.cfg := acceptState_cfg s
  case inr.inr => exact busyTick_cfg s

end Sys2Proof.Proofs
end

section
/-! PROOFS. What R310 gives the invariant, and what the environment keeps at a tick's boundary whatever the block does
(R61 to R67). -/

namespace Sys2Proof.Proofs

open Sys2Proof Sys2Proof.Machine

/-- A duration the delay counter can hold: at least one tick, and within `DW` bits (R310 item 1). -/
def FitsTimer (c : Config) (n : Nat) : Prop := 1 ≤ n ∧ n < 2 ^ cfgDw c

/-- R310 items 1 to 4 and 6, as the invariant uses them. -/
structure ConfigBounds (c : Config) : Prop where
  tSu : FitsTimer c c.tSu
  tHi : FitsTimer c c.tHi
  tSettle : FitsTimer c c.tSettle
  tWe : FitsTimer c c.tWe
  tHold : FitsTimer c c.tHold
  tAcc : FitsTimer c c.tAcc
  tTurn : FitsTimer c c.tTurn
  write_le_settle : c.tWC ≤ c.tSettle
  settle_le_turn : c.tSettle ≤ c.tTurn
  access_le_acc : c.tAccD ≤ c.tAcc
  size_pos : 1 ≤ c.deviceSize
  size_le : c.deviceSize ≤ 65536
  pBegin_le : c.pBegin ≤ c.pEnd
  pEnd_le : c.pEnd ≤ c.deviceSize
  vBegin_le : c.vBegin ≤ c.vEnd
  vEnd_le : c.vEnd ≤ c.deviceSize

theorem configBounds_of_valid {c : Config} (h : configValid c = true) : ConfigBounds c := by
  simp only [configValid, cfgDurations, cfgSettleCoversWrite, cfgTurnCoversSettle, cfgAccessCovered, cfgRanges,
    Bool.and_eq_true, decide_eq_true_eq, List.all_cons, List.all_nil] at h
  obtain ⟨⟨⟨⟨⟨⟨hdur, hwrite⟩, hturn⟩, hacc⟩, -⟩, hrange⟩, -⟩ := h
  obtain ⟨⟨⟨⟨⟨⟨⟨-, hpos⟩, hle⟩, hp⟩, hpe⟩, hv⟩, hve⟩, -⟩ := hrange
  obtain ⟨hsu, hhi, hse, hwe, hho, hac, htu, -⟩ := hdur
  exact ⟨hsu, hhi, hse, hwe, hho, hac, htu, hwrite, hturn, hacc, hpos, hle, hp, hpe, hv, hve⟩

theorem devAddr_lt {c : Config} (h : ConfigBounds c) (a : Addr) : devAddr c a < c.deviceSize :=
  Nat.mod_lt _ h.size_pos

theorem envLat_lt {s : State} (h : ConfigBounds s.cfg) (hl : s.latAddr < s.cfg.deviceSize) (t : State) :
    envLat s t < s.cfg.deviceSize := by
  unfold envLat
  split
  · exact devAddr_lt h s.sr
  · exact hl

/-- The environment keeps the storage canonical and inside the device, whatever the block's outputs do. -/
theorem envStep_keeps_device {s u : State} (hb : ConfigBounds s.cfg) (hs : InvDevice s) (hcfg : u.cfg = s.cfg)
    (r : Bool) : InvDevice (envStep r s u) := by
  obtain ⟨hwf, hin, hlat⟩ := hs
  refine ⟨envMem_wf hwf r u, fun x hx => ?_, ?_⟩
  · rw [envStep_cfg, hcfg]
    rcases mem_envMem hx with h | h | h
    · exact h ▸ hlat
    · exact h ▸ envLat_lt hb hlat u
    · exact hin x h
  · rw [envStep_cfg, hcfg]
    exact envLat_lt hb hlat u

theorem weRise_of_weN_eq {s u : State} (h : u.weN = s.weN) : weRise s u = false := by simp [weRise, h]

theorem weRise_of_low {s u : State} (h : u.weN = false) : weRise s u = false := by simp [weRise, h]

theorem not_weFall_of_weN_eq {s u : State} (h : u.weN = s.weN) : ¬ weFall s u = true := by simp [weFall, h]

theorem not_weFall_of_high {s u : State} (h : u.weN = true) : ¬ weFall s u = true := by simp [weFall, h]

theorem serRise_of_serClk_eq {s u : State} (h : u.serClk = s.serClk) : serRise s u = false := by simp [serRise, h]

theorem envBusy_of_no_rise {s u : State} (h : weRise s u = false) : envBusy s u = s.busy - 1 := by
  simp [envBusy, h]

theorem envSr_of_no_rise {s u : State} (h : serRise s u = false) : envSr s u = s.sr := by
  simp [envSr, h]

theorem envWait_of_no_rise {s u : State} (h : serRise s u = false) : envWait s u = s.accWait - 1 := by
  simp [envWait, envSr_of_no_rise h]

theorem envBad_of_idle_device {s u : State} (hs : s.pulseBad = false) (hfall : weFall s u = true → s.busy = 0) :
    envBad s u = false := by
  unfold envBad
  split
  · simp [fallBusy, hfall ‹_›]
  · exact hs

/-- The environment keeps its counters in range when every write pulse starts on an idle device. -/
theorem envStep_keeps_counters {s u : State} (hs : InvCounters s) (hcfg : u.cfg = s.cfg)
    (hfall : weFall s u = true → s.busy = 0) (r : Bool) : InvCounters (envStep r s u) := by
  obtain ⟨hbusy, hwait, hbad⟩ := hs
  refine ⟨?_, ?_, envBad_of_idle_device hbad hfall⟩
  · show envBusy s u ≤ u.cfg.tWC
    rw [hcfg]
    unfold envBusy
    split <;> omega
  · show envWait s u ≤ u.cfg.tAccD - 1
    rw [hcfg]
    unfold envWait
    split <;> omega

end Sys2Proof.Proofs
end

section
/-! PROOFS. The invariant as two tables, one row for each state of `SEQ` and one for each state of `CTRL`, and what a
tick's block registers must satisfy for the next state to be in them. -/

namespace Sys2Proof.Proofs

open Sys2Proof Sys2Proof.Machine

/-- The parts of the invariant about the sequencer and the data lines. -/
abbrev BlockInv (s : State) : Prop := InvEdges s ∧ InvTimer s ∧ InvBus s ∧ InvWrite s ∧ InvRead s

/-- The controller's parts of the invariant. -/
abbrev ControllerInv (s : State) : Prop := InvSweep s ∧ InvProgramming s ∧ InvVerifying s

/-- The sequencer's part of the invariant, one row for each state of `SEQ` (R193, R302 to R307). -/
def SequencerRow (s : State) : Seq → Prop
  | .idle => s.weN = true ∧ s.serClk = false
  | .shSetup => s.weN = true ∧ s.serClk = false ∧ 1 ≤ s.dc
  | .shHigh => s.weN = true ∧ s.serClk = true ∧ 1 ≤ s.dc
  | .wrSettle => s.weN = true ∧ s.serClk = false ∧ s.dir = true ∧ s.oeN = true ∧ s.busy < s.dc
  | .wrLow => s.weN = false ∧ s.serClk = false ∧ s.dir = true ∧ s.oeN = true ∧ s.busy = 0 ∧ 1 ≤ s.dc
  | .wrHold => s.weN = true ∧ s.serClk = false ∧ s.dir = true ∧ s.oeN = true ∧ 1 ≤ s.dc
  | .rdWait => s.weN = true ∧ s.serClk = false ∧ s.dir = false ∧ s.oeN = false ∧ s.accWait < s.dc
  | .turnR => s.weN = true ∧ s.serClk = false ∧ s.dir = false ∧ s.busy < s.dc
  | .turnW => s.weN = true ∧ s.serClk = false ∧ s.oeN = true ∧ 1 ≤ s.dc

/-- The bus part of the invariant that does not depend on `SEQ` (R28, R301, R306). -/
def BusRow (s : State) : Prop :=
  s.dc < 2 ^ cfgDw s.cfg ∧ (s.dir = true → s.oeN = true) ∧ (s.oeN = false → s.busy = 0)

/-- In a row of the table the invariant's clauses about the other states of `SEQ` are void. -/
theorem blockInv_iff (s : State) : BlockInv s ↔ BusRow s ∧ SequencerRow s s.seq := by
  cases hq : s.seq <;> simp [BlockInv, InvEdges, InvTimer, InvBus, InvWrite, InvRead, BusRow, SequencerRow, hq]
  all_goals grind

/-- The controller's part of the invariant, one row for each state of `CTRL` (R231, R241). -/
def ControllerRow (s : State) : Ctrl → Prop
  | .idle => s.seq = .idle
  | .pAddr => s.ac.toNat ≤ s.cfg.pEnd ∧ (s.seq = .turnW ∨ (s.seq = .idle ∧ s.dir = true ∧ s.oeN = true))
  | .pData =>
    s.ac.toNat < s.cfg.pEnd ∧ (s.seq = .shSetup ∨ s.seq = .shHigh ∨ s.seq = .idle) ∧ s.dir = true ∧ s.oeN = true
  | .pDone =>
    s.ac.toNat < s.cfg.pEnd ∧ (s.seq = .wrSettle ∨ s.seq = .wrLow ∨ s.seq = .wrHold ∨ s.seq = .idle) ∧
      s.dir = true ∧ s.oeN = true
  | .vAddr => s.ac.toNat ≤ s.cfg.vEnd ∧ (s.seq = .turnR ∨ (s.seq = .idle ∧ s.dir = false ∧ s.oeN = false))
  | .vRead =>
    s.ac.toNat < s.cfg.vEnd ∧ (s.seq = .shSetup ∨ s.seq = .shHigh ∨ s.seq = .idle) ∧ s.dir = false ∧ s.oeN = false
  | .vEmit => s.ac.toNat < s.cfg.vEnd ∧ (s.seq = .rdWait ∨ s.seq = .idle) ∧ s.dir = false ∧ s.oeN = false
  | .done => s.seq = .idle ∧ s.dir = false ∧ s.oeN = false

theorem controllerInv_iff (s : State) : ControllerInv s ↔ ControllerRow s s.ctrl := by
  cases hc : s.ctrl <;> simp [ControllerInv, InvSweep, InvProgramming, InvVerifying, ControllerRow, hc]

/-- The invariant, taken apart into its tables. -/
theorem inv_iff (s : State) :
    Inv s ↔ configValid s.cfg = true ∧ InvDevice s ∧ InvCounters s ∧ BusRow s ∧ SequencerRow s s.seq ∧
      (s.drive = .controller → ControllerRow s s.ctrl) := by
  constructor
  · rintro ⟨hvalid, hdev, hcnt, hedges, htimer, hbus, hwrite, hread, hctl⟩
    obtain ⟨hb, hq⟩ := (blockInv_iff s).mp ⟨hedges, htimer, hbus, hwrite, hread⟩
    exact ⟨hvalid, hdev, hcnt, hb, hq, fun hd => (controllerInv_iff s).mp (hctl hd)⟩
  · rintro ⟨hvalid, hdev, hcnt, hb, hq, hctl⟩
    obtain ⟨hedges, htimer, hbus, hwrite, hread⟩ := (blockInv_iff s).mpr ⟨hb, hq⟩
    exact ⟨hvalid, hdev, hcnt, hedges, htimer, hbus, hwrite, hread, fun hd => (controllerInv_iff s).mpr (hctl hd)⟩

/-- The data lines after a tick: the device is idle whenever its output is enabled. -/
theorem busRow_envStep {r : Bool} {s u : State} (hcfg : u.cfg = s.cfg) (hdc : u.dc < 2 ^ cfgDw s.cfg)
    (hdir : u.dir = true → u.oeN = true) (hoe : u.oeN = false → s.busy = 0 ∧ weRise s u = false) :
    BusRow (envStep r s u) := by
  refine ⟨?_, hdir, fun h => ?_⟩
  · rw [envStep_dc, envStep_cfg, hcfg]
    exact hdc
  · obtain ⟨hbusy, hrise⟩ := hoe h
    show envBusy s u = 0
    rw [envBusy_of_no_rise hrise, hbusy]

/-- What a tick's block registers must give for the invariant of the next state: the environment's parts follow. -/
theorem inv_envStep {r : Bool} {s u : State} (hs : Inv s) (hcfg : u.cfg = s.cfg)
    (hfall : weFall s u = true → s.busy = 0) (hbus : BusRow (envStep r s u))
    (hseq : SequencerRow (envStep r s u) u.seq) (hctl : u.drive = .controller → ControllerRow u u.ctrl) :
    Inv (envStep r s u) := by
  obtain ⟨hvalid, hdev, hcnt, -⟩ := (inv_iff s).mp hs
  refine (inv_iff _).mpr ⟨?_, envStep_keeps_device (configBounds_of_valid hvalid) hdev hcfg r,
    envStep_keeps_counters hcnt hcfg hfall r, hbus, hseq, hctl⟩
  rw [envStep_cfg, hcfg]
  exact hvalid

/-- The same for a tick that leaves `WE_N` alone: no write pulse starts or ends in it. -/
theorem inv_envStep_of_weN_eq {s u : State} (hs : Inv s) (hcfg : u.cfg = s.cfg) (hwe : u.weN = s.weN)
    (hdc : u.dc < 2 ^ cfgDw s.cfg) (hdir : u.dir = true → u.oeN = true) (hoe : u.oeN = false → s.busy = 0)
    (hseq : SequencerRow (envStep false s u) u.seq) (hctl : u.drive = .controller → ControllerRow u u.ctrl) :
    Inv (envStep false s u) :=
  inv_envStep hs hcfg (fun h => absurd h (not_weFall_of_weN_eq hwe))
    (busRow_envStep hcfg hdc hdir fun h => ⟨hoe h, weRise_of_weN_eq hwe⟩) hseq hctl

end Sys2Proof.Proofs
end

section
/-! PROOFS. The invariant over a reset tick (R291) and over the ticks of the timed states: a tick counts down inside
its row or its exit action goes to the next row (R193). -/

namespace Sys2Proof.Proofs

open Sys2Proof Sys2Proof.Machine

theorem resetTick_keeps_inv {s : State} (hs : Inv s) : Inv (resetTick s) :=
  inv_envStep hs rfl (fun h => absurd h (not_weFall_of_high rfl)) (by simp [BusRow]) ⟨rfl, rfl⟩ fun _ => rfl

/-! ### A tick of a timed state -/

/-- The exit action of a timed state (R193); `S_IDLE` has none. -/
def seqExit (sample : Byte) (s : State) : State :=
  match s.seq with
  | .idle => s
  | .shSetup => exitShSetup s
  | .shHigh => exitShHigh s
  | .wrSettle => exitWrSettle s
  | .wrLow => exitWrLow s
  | .wrHold => exitWrHold s
  | .rdWait => exitRdWait sample s
  | .turnR => exitTurnR s
  | .turnW => exitTurnW s

theorem seqStep_eq_timed (d : Byte) {s : State} (hq : s.seq ≠ .idle) : seqStep d s = timed (seqExit d) s := by
  cases h : s.seq <;> simp_all [seqStep, timed, seqExit]

/-- A timed state with a tick left counts down or performs its exit action (R193). -/
theorem seqStep_cases (d : Byte) {s : State} (hq : s.seq ≠ .idle) (hdc : 1 ≤ s.dc) :
    (1 < s.dc ∧ seqStep d s = { s with dc := s.dc - 1 }) ∨ (s.dc = 1 ∧ seqStep d s = seqExit d s) := by
  rw [seqStep_eq_timed d hq]
  rcases timed_cases (seqExit d) s with h | h | ⟨h, -⟩
  · exact .inl h
  · exact .inr h
  · omega

/-- A tick that counts down. -/
def countDown (s : State) : State := envStep false s { openTick s with dc := s.dc - 1 }

/-- A tick with the exit action. -/
def exitTick (s : State) : State := envStep false s (seqExit (readSample s) (openTick s))

theorem busyTick_cases {s : State} (hq : s.seq ≠ .idle) (hdc : 1 ≤ s.dc) :
    (1 < s.dc ∧ busyTick s = countDown s) ∨ (s.dc = 1 ∧ busyTick s = exitTick s) := by
  rcases seqStep_cases (readSample s) (s := openTick s) hq hdc with ⟨h, he⟩ | ⟨h, he⟩
  · exact .inl ⟨h, congrArg (envStep false s) he⟩
  · exact .inr ⟨h, congrArg (envStep false s) he⟩

theorem countDown_sequencerRow {s : State} {q : Seq} (hs : SequencerRow s q) (hdc : 1 < s.dc) :
    SequencerRow (countDown s) q := by
  have hbusy : (countDown s).busy = s.busy - 1 := envBusy_of_no_rise (weRise_of_weN_eq rfl)
  have hwait : (countDown s).accWait = s.accWait - 1 := envWait_of_no_rise (serRise_of_serClk_eq rfl)
  have hleft : (countDown s).dc = s.dc - 1 := rfl
  cases q with
  | idle => exact hs
  | shSetup | shHigh =>
    obtain ⟨hwe, hclk, -⟩ := hs
    exact ⟨hwe, hclk, by omega⟩
  | wrSettle =>
    obtain ⟨hwe, hclk, hd, ho, hb⟩ := hs
    exact ⟨hwe, hclk, hd, ho, by omega⟩
  | wrLow =>
    obtain ⟨hwe, hclk, hd, ho, hb, -⟩ := hs
    exact ⟨hwe, hclk, hd, ho, by omega, by omega⟩
  | wrHold =>
    obtain ⟨hwe, hclk, hd, ho, -⟩ := hs
    exact ⟨hwe, hclk, hd, ho, by omega⟩
  | rdWait =>
    obtain ⟨hwe, hclk, hd, ho, hw⟩ := hs
    exact ⟨hwe, hclk, hd, ho, by omega⟩
  | turnR =>
    obtain ⟨hwe, hclk, hd, hb⟩ := hs
    exact ⟨hwe, hclk, hd, by omega⟩
  | turnW =>
    obtain ⟨hwe, hclk, ho, -⟩ := hs
    exact ⟨hwe, hclk, ho, by omega⟩

theorem countDown_keeps_inv {s : State} (hs : Inv s) (hdc : 1 < s.dc) : Inv (countDown s) := by
  obtain ⟨-, -, -, ⟨hfit, hdir, hoe⟩, hseq, hctl⟩ := (inv_iff s).mp hs
  have hfit' : s.dc - 1 < 2 ^ cfgDw s.cfg := Nat.lt_of_le_of_lt (Nat.sub_le ..) hfit
  exact inv_envStep_of_weN_eq hs rfl rfl hfit' hdir hoe (countDown_sequencerRow hseq hdc) hctl

/-- The sequencer's moves inside one command that leave `DIR` and `OE_N` alone (R201, R206, R211). -/
inductive SeqMove : Seq → Seq → Prop
  | clockRises : SeqMove .shSetup .shHigh
  | nextBit : SeqMove .shHigh .shSetup
  | presented : SeqMove .shHigh .idle
  | pulseStarts : SeqMove .wrSettle .wrLow
  | pulseEnds : SeqMove .wrLow .wrHold
  | written : SeqMove .wrHold .idle
  | sampled : SeqMove .rdWait .idle

/-- Such a move stays inside the row of the controller's state. -/
theorem controllerRow_move {s u : State} {c : Ctrl} {p q : Seq} (hs : ControllerRow s c) (hp : s.seq = p)
    (hq : u.seq = q) (hmove : SeqMove p q) (hcfg : u.cfg = s.cfg) (hac : u.ac = s.ac) (hdir : u.dir = s.dir)
    (hoe : u.oeN = s.oeN) : ControllerRow u c := by
  cases hmove <;> cases c <;> simp_all [ControllerRow]

theorem controllerRow_exitTurnR {s : State} (hq : s.seq = .turnR) (hdir : s.dir = false)
    (hs : ControllerRow s s.ctrl) : ControllerRow (exitTurnR (openTick s)) s.ctrl := by
  cases hc : s.ctrl <;> simp_all [ControllerRow, exitTurnR]

theorem controllerRow_exitTurnW {s : State} (hq : s.seq = .turnW) (hoe : s.oeN = true)
    (hs : ControllerRow s s.ctrl) : ControllerRow (exitTurnW (openTick s)) s.ctrl := by
  cases hc : s.ctrl <;> simp_all [ControllerRow, exitTurnW]

section Exits

variable {s : State}

theorem exitShSetup_keeps_inv (hs : Inv s) (hq : s.seq = .shSetup) :
    Inv (envStep false s (exitShSetup (openTick s))) := by
  obtain ⟨hvalid, -, -, ⟨-, hdir, hoe⟩, hseq, hctl⟩ := (inv_iff s).mp hs
  rw [hq] at hseq
  obtain ⟨hwe, -, -⟩ := hseq
  obtain ⟨hpos, hfit⟩ := (configBounds_of_valid hvalid).tHi
  exact inv_envStep_of_weN_eq hs rfl rfl hfit hdir hoe
    ⟨hwe, rfl, hpos⟩ fun hd => controllerRow_move (hctl hd) hq rfl .clockRises rfl rfl rfl rfl

theorem exitShHigh_keeps_inv (hs : Inv s) (hq : s.seq = .shHigh) :
    Inv (envStep false s (exitShHigh (openTick s))) := by
  obtain ⟨hvalid, -, -, ⟨hdc, hdir, hoe⟩, hseq, hctl⟩ := (inv_iff s).mp hs
  rw [hq] at hseq
  obtain ⟨hwe, -, -⟩ := hseq
  obtain ⟨hpos, hfit⟩ := (configBounds_of_valid hvalid).tSu
  unfold exitShHigh
  split
  · exact inv_envStep_of_weN_eq hs rfl rfl hfit hdir hoe
      ⟨hwe, rfl, hpos⟩ fun hd => controllerRow_move (hctl hd) hq rfl .nextBit rfl rfl rfl rfl
  · exact inv_envStep_of_weN_eq hs rfl rfl hdc hdir hoe
      ⟨hwe, rfl⟩ fun hd => controllerRow_move (hctl hd) hq rfl .presented rfl rfl rfl rfl

/-- The pulse starts on an idle device: the settle time has outlasted its write cycle (R305). -/
theorem exitWrSettle_keeps_inv (hs : Inv s) (hq : s.seq = .wrSettle) (hdc : s.dc = 1) :
    Inv (envStep false s (exitWrSettle (openTick s))) := by
  obtain ⟨hvalid, -, -, ⟨-, hdir, hoe⟩, hseq, hctl⟩ := (inv_iff s).mp hs
  rw [hq] at hseq
  obtain ⟨-, hclk, hd, ho, hlt⟩ := hseq
  obtain ⟨hpos, hfit⟩ := (configBounds_of_valid hvalid).tWe
  have hidle : s.busy = 0 := by omega
  have hbusy : envBusy s (exitWrSettle (openTick s)) = 0 := by
    rw [envBusy_of_no_rise (weRise_of_low rfl), hidle]
  exact inv_envStep hs rfl (fun _ => hidle) (busRow_envStep rfl hfit hdir fun h => ⟨hoe h, weRise_of_low rfl⟩)
    ⟨rfl, hclk, hd, ho, hbusy, hpos⟩ fun hd => controllerRow_move (hctl hd) hq rfl .pulseStarts rfl rfl rfl rfl

/-- The pulse's end starts a write cycle with the device's output off. -/
theorem exitWrLow_keeps_inv (hs : Inv s) (hq : s.seq = .wrLow) :
    Inv (envStep false s (exitWrLow (openTick s))) := by
  obtain ⟨hvalid, -, -, ⟨-, hdir, hoe⟩, hseq, hctl⟩ := (inv_iff s).mp hs
  rw [hq] at hseq
  obtain ⟨-, hclk, hd, ho, -⟩ := hseq
  obtain ⟨hpos, hfit⟩ := (configBounds_of_valid hvalid).tHold
  have hoff : ¬ (exitWrLow (openTick s)).oeN = false := by simp [exitWrLow, ho]
  exact inv_envStep hs rfl (fun h => absurd h (not_weFall_of_high rfl))
    (busRow_envStep rfl hfit hdir fun h => absurd h hoff)
    ⟨rfl, hclk, hd, ho, hpos⟩ fun hd => controllerRow_move (hctl hd) hq rfl .pulseEnds rfl rfl rfl rfl

theorem exitWrHold_keeps_inv (hs : Inv s) (hq : s.seq = .wrHold) :
    Inv (envStep false s (exitWrHold (openTick s))) := by
  obtain ⟨-, -, -, ⟨hdc, hdir, hoe⟩, hseq, hctl⟩ := (inv_iff s).mp hs
  rw [hq] at hseq
  obtain ⟨hwe, hclk, -⟩ := hseq
  exact inv_envStep_of_weN_eq hs rfl rfl hdc hdir hoe
    ⟨hwe, hclk⟩ fun hd => controllerRow_move (hctl hd) hq rfl .written rfl rfl rfl rfl

theorem exitRdWait_keeps_inv (hs : Inv s) (hq : s.seq = .rdWait) (d : Byte) :
    Inv (envStep false s (exitRdWait d (openTick s))) := by
  obtain ⟨-, -, -, ⟨hdc, hdir, hoe⟩, hseq, hctl⟩ := (inv_iff s).mp hs
  rw [hq] at hseq
  obtain ⟨hwe, hclk, -⟩ := hseq
  exact inv_envStep_of_weN_eq hs rfl rfl hdc hdir hoe
    ⟨hwe, hclk⟩ fun hd => controllerRow_move (hctl hd) hq rfl .sampled rfl rfl rfl rfl

/-- The device's output is enabled after its write cycle has ended (R306). -/
theorem exitTurnR_keeps_inv (hs : Inv s) (hq : s.seq = .turnR) (hdc : s.dc = 1) :
    Inv (envStep false s (exitTurnR (openTick s))) := by
  obtain ⟨-, -, -, ⟨hfit, -⟩, hseq, hctl⟩ := (inv_iff s).mp hs
  rw [hq] at hseq
  obtain ⟨hwe, hclk, hd, hlt⟩ := hseq
  have hidle : s.busy = 0 := by omega
  have hin : ¬ (exitTurnR (openTick s)).dir = true := by simp [exitTurnR, hd]
  exact inv_envStep_of_weN_eq hs rfl rfl hfit (fun h => absurd h hin) (fun _ => hidle) ⟨hwe, hclk⟩
    fun h => controllerRow_exitTurnR hq hd (hctl h)

theorem exitTurnW_keeps_inv (hs : Inv s) (hq : s.seq = .turnW) :
    Inv (envStep false s (exitTurnW (openTick s))) := by
  obtain ⟨-, -, -, ⟨hfit, -, hoe⟩, hseq, hctl⟩ := (inv_iff s).mp hs
  rw [hq] at hseq
  obtain ⟨hwe, hclk, ho, -⟩ := hseq
  exact inv_envStep_of_weN_eq hs rfl rfl hfit (fun _ => ho) hoe ⟨hwe, hclk⟩
    fun h => controllerRow_exitTurnW hq ho (hctl h)

theorem exitTick_keeps_inv (hs : Inv s) (hq : s.seq ≠ .idle) (hdc : s.dc = 1) : Inv (exitTick s) := by
  unfold exitTick seqExit
  rw [openTick_seq]
  cases h : s.seq with
  | idle => exact absurd h hq
  | shSetup => exact exitShSetup_keeps_inv hs h
  | shHigh => exact exitShHigh_keeps_inv hs h
  | wrSettle => exact exitWrSettle_keeps_inv hs h hdc
  | wrLow => exact exitWrLow_keeps_inv hs h
  | wrHold => exact exitWrHold_keeps_inv hs h
  | rdWait => exact exitRdWait_keeps_inv hs h _
  | turnR => exact exitTurnR_keeps_inv hs h hdc
  | turnW => exact exitTurnW_keeps_inv hs h

theorem busyTick_keeps_inv (hs : Inv s) (hq : s.seq ≠ .idle) : Inv (busyTick s) := by
  obtain ⟨-, -, -, -, ⟨-, hleft⟩, -⟩ := id hs
  rcases busyTick_cases hq (hleft hq) with ⟨hdc, ht⟩ | ⟨hdc, ht⟩ <;> rw [ht]
  · exact countDown_keeps_inv hs hdc
  · exact exitTick_keeps_inv hs hq hdc

end Exits

end Sys2Proof.Proofs
end

section
/-! PROOFS. The invariant over a tick that accepts an instruction (R192): a test program's command is checked for its
bus direction (R207, R212), the controller's finds the direction its row gives (R241). -/

namespace Sys2Proof.Proofs

open Sys2Proof Sys2Proof.Machine

@[simp] theorem acceptState_seq (s : State) : (acceptState s).seq = s.seq := by
  obtain ⟨-, -, h, -⟩ := acceptState_frame s
  exact h

@[simp] theorem acceptState_dc (s : State) : (acceptState s).dc = s.dc := by
  obtain ⟨-, -, -, -, -, h, -⟩ := acceptState_frame s
  exact h

@[simp] theorem acceptState_serClk (s : State) : (acceptState s).serClk = s.serClk := by
  obtain ⟨-, -, -, -, -, -, -, h, -⟩ := acceptState_frame s
  exact h

@[simp] theorem acceptState_dir (s : State) : (acceptState s).dir = s.dir := by
  obtain ⟨-, -, -, -, -, -, -, -, -, h, -⟩ := acceptState_frame s
  exact h

@[simp] theorem acceptState_weN (s : State) : (acceptState s).weN = s.weN := by
  obtain ⟨-, -, -, -, -, -, -, -, -, -, h, -⟩ := acceptState_frame s
  exact h

@[simp] theorem acceptState_oeN (s : State) : (acceptState s).oeN = s.oeN := by
  obtain ⟨-, -, -, -, -, -, -, -, -, -, -, h, -⟩ := acceptState_frame s
  exact h

/-- The acceptance actions with the bus direction each one needs (R201, R206, R207, R211, R212, R215, R218). -/
inductive Accepted (a : State) : State → Prop
  | none : Accepted a a
  | present (x : Addr) :
    Accepted a (enter .shSetup a.cfg.tSu { a with areg := x, bi := 15, serData := x.getLsbD 15, serClk := false })
  | write (b : Byte) (hdir : a.dir = true) (hoe : a.oeN = true) : Accepted a (acceptWrite b a)
  | read (hdir : a.dir = false) (hoe : a.oeN = false) : Accepted a (enter .rdWait a.cfg.tAcc a)
  | turnRead : Accepted a (enter .turnR a.cfg.tTurn { a with dir := false })
  | turnWrite : Accepted a (enter .turnW a.cfg.tTurn { a with oeN := true })

theorem decodeCmd_format {w : CmdWord} {i : Instr} (h : decodeCmd w = .instr i) : i.format = .cmd19 := by
  unfold decodeCmd at h
  split_ifs at h <;> cases h <;> rfl

/-- A test program's command runs only with the bus in its direction. -/
theorem accepted_of_program {a u : State} {i : Instr} (hp : programDriven a = true) (hi : i.format = .cmd19)
    (h : exec i a = .next u) : Accepted a u := by
  cases i with
  | cmdNone _ => cases h; exact .none
  | present x => cases h; exact .present x
  | write _ b =>
    obtain ⟨rfl, hok⟩ := withDirection_eq_next h
    obtain ⟨hdir, hoe⟩ := Bool.and_eq_true_iff.mp (hok hp)
    exact .write b hdir hoe
  | read _ =>
    obtain ⟨rfl, hok⟩ := withDirection_eq_next h
    obtain ⟨hdir, hoe⟩ := Bool.and_eq_true_iff.mp (hok hp)
    exact .read (by simpa using hdir) (by simpa using hoe)
  | turnRead _ => cases h; exact .turnRead
  | turnWrite _ => cases h; exact .turnWrite
  | _ => cases hi

/-- Every decoder class of either encoder is accepted as a byte write (R234). -/
theorem exec_decodeAddr (v : Variant) (x : Addr) (a : State) :
    ∃ b, exec (decodeAddr v x) a = .next (acceptWrite b a) := by
  cases v with
  | disp => unfold decodeAddr decodeDisp; dsimp only; split_ifs <;> exact ⟨_, rfl⟩
  | cs => unfold decodeAddr decodeCs; dsimp only; split_ifs <;> exact ⟨_, rfl⟩

/-- An accepted instruction keeps the invariant's tables of the sequencer and the bus. -/
theorem accepted_keeps_inv {s u : State} (hs : Inv s) (hq : s.seq = .idle) (ha : Accepted (acceptState s) u)
    (hctl : u.drive = .controller → ControllerRow u u.ctrl) : Inv (envStep false s u) := by
  obtain ⟨hvalid, -, ⟨hbusy, hwait, -⟩, ⟨hfit, hdir, hoe⟩, hseq, -⟩ := (inv_iff s).mp hs
  have hc := configBounds_of_valid hvalid
  rw [hq] at hseq
  obtain ⟨hwe, hclk⟩ := hseq
  cases ha with
  | none =>
    exact inv_envStep_of_weN_eq hs (by simp) (by simp) (by simpa using hfit) (by simpa using hdir) (by simpa using hoe)
      (by simp [SequencerRow, hq, hwe, hclk]) hctl
  | present x =>
    obtain ⟨hpos, hlt⟩ := hc.tSu
    exact inv_envStep_of_weN_eq hs (by simp) (by simp) (by simpa using hlt) (by simpa using hdir) (by simpa using hoe)
      (by simp [SequencerRow, hwe, hpos]) hctl
  | write b hd ho =>
    obtain ⟨hpos, hlt⟩ := hc.tSettle
    have hless : envBusy s (acceptWrite b (acceptState s)) < s.cfg.tSettle := by
      rw [envBusy_of_no_rise (weRise_of_weN_eq (by simp))]
      have := hc.write_le_settle
      omega
    exact inv_envStep_of_weN_eq hs (by simp) (by simp) (by simpa using hlt) (by simpa using hdir) (by simpa using hoe)
      ⟨by simpa using hwe, by simpa using hclk, hd, ho, by simpa using hless⟩ hctl
  | read hd ho =>
    obtain ⟨hpos, hlt⟩ := hc.tAcc
    have hless : envWait s (enter .rdWait (acceptState s).cfg.tAcc (acceptState s)) < s.cfg.tAcc := by
      rw [envWait_of_no_rise (serRise_of_serClk_eq (by simp))]
      have := hc.access_le_acc
      omega
    exact inv_envStep_of_weN_eq hs (by simp) (by simp) (by simpa using hlt) (by simpa using hdir) (by simpa using hoe)
      ⟨by simpa using hwe, by simpa using hclk, hd, ho, by simpa using hless⟩ hctl
  | turnRead =>
    obtain ⟨hpos, hlt⟩ := hc.tTurn
    have hless :
        envBusy s (enter .turnR (acceptState s).cfg.tTurn { acceptState s with dir := false }) < s.cfg.tTurn := by
      rw [envBusy_of_no_rise (weRise_of_weN_eq (by simp))]
      have := hc.write_le_settle
      have := hc.settle_le_turn
      omega
    exact inv_envStep_of_weN_eq hs (by simp) (by simp) (by simpa using hlt) (by simp) (by simpa using hoe)
      ⟨by simpa using hwe, by simpa using hclk, rfl, by simpa using hless⟩ hctl
  | turnWrite =>
    obtain ⟨hpos, hlt⟩ := hc.tTurn
    exact inv_envStep_of_weN_eq hs (by simp) (by simp) (by simpa using hlt) (by simp) (by simp)
      (by simp [SequencerRow, hwe, hclk, hpos]) hctl

theorem acceptState_of_controller {s : State} (hd : s.drive = .controller) :
    acceptState s = controllerNext (openTick s) := by
  simp [acceptState, portAdvance, hd]

section ControllerTicks

variable {s u : State} (hc : ConfigBounds s.cfg) (hd : s.drive = .controller) (hq : s.seq = .idle)
  (hs : ControllerRow s s.ctrl) (hx : exec (controllerCommand s) (acceptState s) = .next u)

include hd hq hx

include hc in
theorem controllerTick_idle (h : s.ctrl = .idle) : Accepted (acceptState s) u ∧ ControllerRow u u.ctrl := by
  have hle : s.cfg.pBegin % 2 ^ 17 ≤ s.cfg.pEnd := (Nat.mod_le ..).trans hc.pBegin_le
  simp only [controllerCommand, hq, h] at hx
  cases hx
  refine ⟨.turnWrite, ?_⟩
  simpa [acceptState_of_controller hd, controllerNext, h, ControllerRow] using hle

include hc hs in
theorem controllerTick_pAddr (h : s.ctrl = .pAddr) : Accepted (acceptState s) u ∧ ControllerRow u u.ctrl := by
  simp only [h, ControllerRow, hq] at hs
  obtain ⟨-, hrow⟩ := hs
  obtain ⟨-, hdir, hoe⟩ := hrow.resolve_left (by simp)
  by_cases hlt : s.ac.toNat < s.cfg.pEnd
  · simp only [controllerCommand, hq, h, if_pos hlt] at hx
    cases hx
    refine ⟨.present _, ?_⟩
    simp [acceptState_of_controller hd, controllerNext, h, ControllerRow, hlt, hdir, hoe]
  · have hle : s.cfg.vBegin % 2 ^ 17 ≤ s.cfg.vEnd := (Nat.mod_le ..).trans hc.vBegin_le
    simp only [controllerCommand, hq, h, if_neg hlt] at hx
    cases hx
    refine ⟨.turnRead, ?_⟩
    simpa [acceptState_of_controller hd, controllerNext, h, ControllerRow, hlt] using hle

include hs in
theorem controllerTick_pData (h : s.ctrl = .pData) : Accepted (acceptState s) u ∧ ControllerRow u u.ctrl := by
  simp only [h, ControllerRow] at hs
  obtain ⟨hlt, -, hdir, hoe⟩ := hs
  obtain ⟨b, hb⟩ := exec_decodeAddr s.cfg.variant (acAddr s) (acceptState s)
  simp only [controllerCommand, hq, h, ne_eq, not_true, if_false, hb] at hx
  cases hx
  refine ⟨.write b (by simpa using hdir) (by simpa using hoe), ?_⟩
  simp [acceptState_of_controller hd, controllerNext, h, ControllerRow, hlt, hdir, hoe]

include hs in
theorem controllerTick_pDone (h : s.ctrl = .pDone) : Accepted (acceptState s) u ∧ ControllerRow u u.ctrl := by
  simp only [h, ControllerRow] at hs
  obtain ⟨hlt, -, hdir, hoe⟩ := hs
  have hle : (s.ac.toNat + 1) % 2 ^ 17 ≤ s.cfg.pEnd := (Nat.mod_le ..).trans hlt
  simp only [controllerCommand, hq, h] at hx
  cases hx
  refine ⟨.none, ?_⟩
  by_cases hp : (s.ac.toNat + 1) % s.cfg.pageSize = 0 <;>
    simpa [acceptState_of_controller hd, controllerNext, h, ControllerRow, hp, hq, hdir, hoe] using hle

include hs in
theorem controllerTick_vAddr (h : s.ctrl = .vAddr) : Accepted (acceptState s) u ∧ ControllerRow u u.ctrl := by
  simp only [h, ControllerRow, hq] at hs
  obtain ⟨-, hrow⟩ := hs
  obtain ⟨-, hdir, hoe⟩ := hrow.resolve_left (by simp)
  by_cases hlt : s.ac.toNat < s.cfg.vEnd
  · simp only [controllerCommand, hq, h, if_pos hlt] at hx
    cases hx
    refine ⟨.present _, ?_⟩
    simp [acceptState_of_controller hd, controllerNext, h, ControllerRow, hlt, hdir, hoe]
  · simp only [controllerCommand, hq, h, if_neg hlt] at hx
    cases hx
    refine ⟨.none, ?_⟩
    simp [acceptState_of_controller hd, controllerNext, h, ControllerRow, hlt, hq, hdir, hoe]

include hs in
theorem controllerTick_vRead (h : s.ctrl = .vRead) : Accepted (acceptState s) u ∧ ControllerRow u u.ctrl := by
  simp only [h, ControllerRow] at hs
  obtain ⟨hlt, -, hdir, hoe⟩ := hs
  simp only [controllerCommand, hq, h] at hx
  obtain ⟨rfl, -⟩ := withDirection_eq_next hx
  refine ⟨.read (by simpa using hdir) (by simpa using hoe), ?_⟩
  simp [acceptState_of_controller hd, controllerNext, h, ControllerRow, hlt, hdir, hoe]

include hs in
theorem controllerTick_vEmit (h : s.ctrl = .vEmit) : Accepted (acceptState s) u ∧ ControllerRow u u.ctrl := by
  simp only [h, ControllerRow] at hs
  obtain ⟨hlt, -, hdir, hoe⟩ := hs
  have hle : (s.ac.toNat + 1) % 2 ^ 17 ≤ s.cfg.vEnd := (Nat.mod_le ..).trans hlt
  simp only [controllerCommand, hq, h] at hx
  cases hx
  refine ⟨.none, ?_⟩
  simpa [acceptState_of_controller hd, controllerNext, h, ControllerRow, hq, hdir, hoe] using hle

include hs in
theorem controllerTick_done (h : s.ctrl = .done) : Accepted (acceptState s) u ∧ ControllerRow u u.ctrl := by
  simp only [h, ControllerRow] at hs
  obtain ⟨-, hdir, hoe⟩ := hs
  simp only [controllerCommand, hq, h] at hx
  cases hx
  refine ⟨.none, ?_⟩
  simp [acceptState_of_controller hd, controllerNext, h, ControllerRow, hq, hdir, hoe]

include hc hs in
/-- The controller's tick goes from row to row, and each of its commands finds the bus in its direction (R241). -/
theorem controllerTick_row : Accepted (acceptState s) u ∧ ControllerRow u u.ctrl := by
  cases h : s.ctrl with
  | idle => exact controllerTick_idle hc hd hq hx h
  | pAddr => exact controllerTick_pAddr hc hd hq hs hx h
  | pData => exact controllerTick_pData hd hq hs hx h
  | pDone => exact controllerTick_pDone hd hq hs hx h
  | vAddr => exact controllerTick_vAddr hd hq hs hx h
  | vRead => exact controllerTick_vRead hd hq hs hx h
  | vEmit => exact controllerTick_vEmit hd hq hs hx h
  | done => exact controllerTick_done hd hq hs hx h

end ControllerTicks

theorem Accepted.drive_eq {a u : State} (h : Accepted a u) : u.drive = a.drive := by
  cases h <;> rfl

theorem acceptState_drive_of_program {s : State} {ws : List CmdWord} (hd : s.drive = .program ws) :
    (acceptState s).drive = .program ws.tail := by
  simp [acceptState, portAdvance, hd]

/-- A test program's port carries a command word or, at the program's end, NONE. -/
theorem portDecoded_format_of_program {s : State} {ws : List CmdWord} {i : Instr} (hd : s.drive = .program ws)
    (h : portDecoded s = .instr i) : i.format = .cmd19 := by
  cases ws with
  | nil =>
    simp only [portDecoded, hd] at h
    cases h
    rfl
  | cons w ws =>
    simp only [portDecoded, hd] at h
    exact decodeCmd_format h

theorem acceptTick_keeps_inv {s u : State} {i : Instr} (hs : Inv s) (hq : s.seq = .idle)
    (hi : portDecoded s = .instr i) (hx : exec i (acceptState s) = .next u) : Inv (envStep false s u) := by
  obtain ⟨hvalid, -, -, -, -, hctl⟩ := (inv_iff s).mp hs
  cases hd : s.drive with
  | controller =>
    have hcmd : i = controllerCommand s := by simpa [portDecoded, hd] using hi.symm
    obtain ⟨ha, hrow⟩ := controllerTick_row (configBounds_of_valid hvalid) hd hq (hctl hd) (hcmd ▸ hx)
    exact accepted_keeps_inv hs hq ha fun _ => hrow
  | program ws =>
    have hdrive : (acceptState s).drive = .program ws.tail := acceptState_drive_of_program hd
    have ha := accepted_of_program (by simp [programDriven, hdrive]) (portDecoded_format_of_program hd hi) hx
    exact accepted_keeps_inv hs hq ha fun h => by simp [ha.drive_eq, hdrive] at h

/-- Settles O5, by the three kinds of tick. -/
theorem stepKeepsInvariant : Obligations.StepKeepsInvariant := by
  intro s t hs h
  obtain ⟨-, ⟨-, rfl⟩ | ⟨-, hq, i, u, hi, hx, rfl⟩ | ⟨-, hq, rfl⟩⟩ := step_next h
  case inl => exact resetTick_keeps_inv hs
  case inr.inl => exact acceptTick_keeps_inv hs hq hi hx
  case inr.inr => exact busyTick_keeps_inv hs hq

end Sys2Proof.Proofs
end

section
/-! PROOFS. The environment at a tick's boundary (spec/20_memory.md R61 to R70): what the shift register and the device
make of a step is a function of the state before it and of the block's outputs after it. -/

namespace Sys2Proof.Proofs

open Sys2Proof Sys2Proof.Machine

/-- Every step ends with the environment's answer to the block's new outputs (R61 to R67). -/
theorem step_next_envStep {s t : State} (h : step s = .next t) : ∃ u, t = envStep (rstNow s) s u := by
  obtain ⟨-, ⟨hr, rfl⟩ | ⟨hr, -, i, u, -, -, rfl⟩ | ⟨hr, -, rfl⟩⟩ := step_next h <;> rw [hr]
  case inl => exact ⟨_, rfl⟩
  case inr.inl => exact ⟨u, rfl⟩
  case inr.inr => exact ⟨_, rfl⟩

/-- The environment of the next state, as the functions of R61 to R67 read off the two states. -/
theorem step_next_environment {s t : State} (h : step s = .next t) :
    t.sr = envSr s t ∧ t.latAddr = envLat s t ∧ t.mem = envMem (rstNow s) s t ∧ t.busy = envBusy s t := by
  obtain ⟨u, rfl⟩ := step_next_envStep h
  exact ⟨rfl, rfl, rfl, rfl⟩

/-! ### Edges -/

theorem serRise_iff (s t : State) : serRise s t = true ↔ s.serClk = false ∧ t.serClk = true := by simp [serRise]

theorem weFall_iff (s t : State) : weFall s t = true ↔ s.weN = true ∧ t.weN = false := by simp [weFall]

theorem weRise_iff (s t : State) : weRise s t = true ↔ s.weN = false ∧ t.weN = true := by simp [weRise]

theorem fallBusy_iff (s t : State) : fallBusy s t = true ↔ (s.weN = true ∧ t.weN = false) ∧ 0 < s.busy := by
  simp [fallBusy, weFall]

theorem not_fallBusy_of_rise {s t : State} (h : weRise s t = true) : ¬ fallBusy s t = true := by
  simp_all [weRise_iff, fallBusy_iff]

/-! ### The shift register -/

/-- The bits after a shift: `SER_DATA` in bit 0, every other bit from its lower neighbour. -/
theorem shiftIn_getLsbD (sr : Addr) (d : Bool) (i : Nat) :
    (shiftIn sr d).getLsbD i = if i = 0 then d else decide (i < 16) && sr.getLsbD (i - 1) := by
  change (field sr 0 15 ++ BitVec.ofBool d : BitVec (15 + 1)).getLsbD i = _
  rw [BitVec.getLsbD_append]
  cases i with
  | zero => simp
  | succ i =>
    have hlow : i + 1 < 16 ↔ i < 15 := by omega
    simp [field, BitVec.getLsbD_extractLsb', hlow]

theorem envSr_of_rise {s t : State} (h : serRise s t = true) : envSr s t = shiftIn s.sr s.serData := if_pos h

/-- Settles O39, from the shift at an edge bit by bit. -/
theorem shiftRegisterBehaviour : Obligations.ShiftRegisterBehaviour := by
  intro s t h
  obtain ⟨hsr, -⟩ := step_next_environment h
  rw [← serRise_iff, hsr]
  refine ⟨fun hrise => ?_, fun hno => envSr_of_no_rise (by simpa using hno)⟩
  rw [envSr_of_rise hrise]
  refine ⟨fun i hi => ?_, shiftIn_getLsbD s.sr s.serData 0⟩
  rw [shiftIn_getLsbD, if_neg (by omega), decide_eq_true (by omega), Bool.true_and, Nat.add_sub_cancel]

/-! ### The device's address lines -/

theorem deviceSize_eq_two_pow {c : Config} (h : configValid c = true) : c.deviceSize = 2 ^ cfgAw c := by
  simp only [configValid, cfgRanges, Bool.and_eq_true, decide_eq_true_eq] at h
  obtain ⟨⟨-, ⟨⟨⟨⟨⟨⟨⟨hsize, -⟩, -⟩, -⟩, -⟩, -⟩, -⟩, -⟩⟩, -⟩ := h
  exact hsize

/-- Settles O40: a remainder by a power of two keeps the low bits. -/
theorem deviceAddressWiring : Obligations.DeviceAddressWiring := by
  intro c p h
  refine ⟨rfl, fun i => ?_, fun q hq => hq⟩
  rw [devAddr, deviceSize_eq_two_pow h, Nat.testBit_mod_two_pow, BitVec.testBit_toNat]

/-! ### The device's storage -/

theorem memWrite_of_blocked {c : Config} (h : c.devWritable = false) (m : Memory) (a : Nat) (v : Byte) :
    memWrite c m a v = m := by
  simp [memWrite, h]

theorem envMem_of_no_edge (r : Bool) {s t : State} (h : t.weN = s.weN) : envMem r s t = s.mem := by
  simp [envMem, fallBusy, weFall, weRise, h]

theorem envMem_of_blocked (r : Bool) {s : State} (h : s.cfg.devWritable = false) (t : State) :
    envMem r s t = s.mem := by
  simp [envMem, memWrite_of_blocked h]

theorem envMem_of_rise (r : Bool) {s t : State} (h : weRise s t = true) :
    envMem r s t = memWrite s.cfg s.mem s.latAddr (pulseByte r s) := by
  rw [envMem, if_neg (not_fallBusy_of_rise h), if_pos h]

theorem envMem_of_fall_idle (r : Bool) {s t : State} (hfall : weFall s t = true) (hb : s.busy = 0) :
    envMem r s t = s.mem := by
  simp_all [envMem, fallBusy_iff, weFall_iff, weRise_iff]

theorem envBad_of_fall_idle {s t : State} (hfall : weFall s t = true) (hb : s.busy = 0) : envBad s t = false := by
  simp [envBad, fallBusy, hfall, hb]

theorem envLat_of_fall {s t : State} (h : weFall s t = true) (ho : s.oeN = true) : envLat s t = devAddr s.cfg s.sr := by
  simp [envLat, h, ho]

theorem envLat_of_no_fall {s t : State} (h : ¬ weFall s t = true) : envLat s t = s.latAddr := by
  simp [envLat, h]

theorem envBusy_of_rise {s t : State} (h : weRise s t = true) : envBusy s t = s.cfg.tWC := if_pos h

/-- A pulse that begins and ends without violation stores the data lines' value (R63). -/
theorem pulseByte_of_good {s : State} (ho : s.oeN = true) (hbad : s.pulseBad = false) : pulseByte false s = bus s := by
  simp [pulseByte, ho, hbad]

/-- A pulse that ends with `OE_N = 0` stores a free value (R67). -/
theorem pulseByte_of_enabled (r : Bool) {s : State} (ho : s.oeN = false) :
    pulseByte r s = Config.freeByte (s.draws + 1) := by
  simp [pulseByte, ho]

/-- Settles O43, from what each edge of `WE_N` does to the storage. -/
theorem deviceChangesOnlyAtEdges : Obligations.DeviceChangesOnlyAtEdges := by
  intro s t h
  obtain ⟨-, hlat, hmem, -⟩ := step_next_environment h
  rw [hmem]
  exact ⟨fun a hold hnew => memRead_envMem_other _ s t hold (hlat ▸ hnew), envMem_of_no_edge _,
    fun hw => envMem_of_blocked _ hw t⟩

/-- Settles O41, edge by edge: the fall latches, the rise stores and starts the write cycle. -/
theorem deviceWriteCycle : Obligations.DeviceWriteCycle := by
  intro s t h hrst hbad ho hw
  obtain ⟨-, hlat, hmem, hbusy⟩ := step_next_environment h
  rw [hrst] at hmem
  rw [← weFall_iff, ← weRise_iff]
  refine ⟨fun hfall => hlat.trans (envLat_of_fall hfall ho), fun hno => hlat.trans (envLat_of_no_fall hno),
    fun hrise => ?_, fun hno => hbusy.trans (envBusy_of_no_rise (by simpa using hno))⟩
  rw [envMem_of_rise false hrise, pulseByte_of_good ho hbad] at hmem
  rw [hmem]
  exact ⟨memRead_memWrite_same hw .., fun x hx => memRead_memWrite_other _ _ _ hx,
    hbusy.trans (envBusy_of_rise hrise)⟩

/-- A pulse that starts on a busy device garbles the byte it cuts off and the byte it is to write (R67). -/
theorem envMem_of_fallBusy (r : Bool) {s t : State} (hw : s.cfg.devWritable = true) (h : fallBusy s t = true) :
    (∃ n, memRead (envMem r s t) s.latAddr = Config.freeByte n) ∧
      ∃ n, memRead (envMem r s t) (envLat s t) = Config.freeByte n := by
  rw [envMem, if_pos h]
  refine ⟨?_, s.draws + 2, memRead_memWrite_same hw ..⟩
  by_cases heq : s.latAddr = envLat s t
  · exact ⟨s.draws + 2, by rw [← heq, memRead_memWrite_same hw]⟩
  · exact ⟨s.draws + 1, by rw [memRead_memWrite_other _ _ _ heq, memRead_memWrite_same hw]⟩

theorem bus_of_busy {s : State} (hdir : s.dir = false) (hbusy : 0 < s.busy) : bus s = Config.freeByte s.draws := by
  have hoff : ¬ s.busy = 0 := by omega
  simp [bus, busDriven, hdir, hoff]

/-- Settles O42, violation by violation of R67. -/
theorem timingViolationsGarble : Obligations.TimingViolationsGarble := by
  refine ⟨fun s t h hw => ?_, fun s => bus_of_busy⟩
  obtain ⟨-, hlat, hmem, -⟩ := step_next_environment h
  rw [hmem, hlat]
  refine ⟨fun ⟨hs, ht, hbusy⟩ => envMem_of_fallBusy _ hw ((fallBusy_iff s t).mpr ⟨⟨hs, ht⟩, hbusy⟩),
    fun ⟨hs, ht, ho⟩ => ⟨s.draws + 1, ?_⟩⟩
  rw [envMem_of_rise _ ((weRise_iff s t).mpr ⟨hs, ht⟩), pulseByte_of_enabled _ ho, memRead_memWrite_same hw]

/-! ### The data lines -/

/-- The tick that ends a READ's wait, with the lines as inputs (R211). -/
theorem busyTick_rdata_of_sample {s : State} (hq : s.seq = .rdWait) (hdc : s.dc = 1) (hdir : s.dir = false) :
    (busyTick s).rdata = bus s := by
  simp [busyTick, seqStep, timed, exitRdWait, readSample, hq, hdc, hdir]

/-- Settles O44: neither WRITE's acceptance nor READ's exit moves a bit to another line. -/
theorem dataLineOrder : Obligations.DataLineOrder := by
  refine ⟨fun ign b s t i h => ?_, fun s i hc hr hq hdc hdir => ?_⟩
  · obtain ⟨rfl, -⟩ := withDirection_eq_next h
    rfl
  · refine ⟨busyTick s, step_of_busy hc hr (by simp [hq]), ?_⟩
    rw [busyTick_rdata_of_sample hq hdc hdir, dataLine]

end Sys2Proof.Proofs
end

section
/-! PROOFS. Runs of ticks inside a timed state (spec/42_sequencer.md R193): the ticks that count down as one update of the
state, and the exit that ends them. -/

namespace Sys2Proof.Proofs

open Sys2Proof Sys2Proof.Machine

/-- A state of configuration `c`, which R310 accepts, with `RST` released from now on. -/
structure Live (c : Config) (s : State) : Prop where
  cfg : s.cfg = c
  valid : configValid c = true
  rst : s.rst = []

variable {c : Config} {s t : State}

theorem Live.stateValid (h : Live c s) : configValid s.cfg = true := h.cfg ▸ h.valid

theorem Live.rstNow_eq (h : Live c s) : rstNow s = false := by simp [rstNow, h.rst]

theorem Live.step_busy (h : Live c s) (hq : s.seq ≠ .idle) : step s = .next (busyTick s) :=
  step_of_busy h.stateValid h.rstNow_eq hq

/-- The step of a tick that accepts an instruction (R192). -/
theorem Live.step_accept (h : Live c s) {i : Instr} {u : State} (hq : s.seq = .idle) (hi : portDecoded s = .instr i)
    (hx : exec i (acceptState s) = .next u) : step s = .next (envStep false s u) := by
  simp [step, h.stateValid, h.rstNow_eq, hq, hi, hx]

/-- No step changes the configuration or adds a level of `RST`. -/
theorem Live.of_step (h : Live c s) (hs : step s = .next t) (hrst : t.rst = s.rst.tail) : Live c t :=
  ⟨(configurationNeverChanges s t hs).trans h.cfg, h.valid, by rw [hrst, h.rst]; rfl⟩

theorem runFor_one (h : step s = .next t) : runFor 1 s = .next t := by rw [runFor_succ h, runFor_zero]

/-- The first step of a run that answers a next state. -/
theorem runFor_succ_eq_next {n : Nat} (h : runFor (n + 1) s = .next t) :
    ∃ u, step s = .next u ∧ runFor n u = .next t := by
  cases hs : step s with
  | next u => exact ⟨u, rfl, by rwa [runFor_succ hs] at h⟩
  | fault r => cases r
  | refused r => simp [runFor, Host.Core.run, Sys2Proof.core, hs] at h

theorem runFor_keeps_inv {n : Nat} (hs : Inv s) (h : runFor n s = .next t) : Inv t := by
  induction n generalizing s with
  | zero => cases h; exact hs
  | succ n ih =>
    obtain ⟨u, hu, hrest⟩ := runFor_succ_eq_next h
    exact ih (stepKeepsInvariant s u hs hu) hrest

/-- A tick without an edge of `WE_N` leaves the device's storage and its latched address as they are (R63). -/
theorem envStep_of_weN_eq (r : Bool) {u : State} (hwe : u.weN = s.weN) (hmem : u.mem = s.mem)
    (hlat : u.latAddr = s.latAddr) (hbad : u.pulseBad = s.pulseBad) :
    envStep r s u =
      { u with sr := envSr s u, accWait := envWait s u, busy := s.busy - 1, draws := envDraws r s u } := by
  have hfall := not_weFall_of_weN_eq hwe
  rw [envStep, envMem_of_no_edge r hwe, envLat_of_no_fall hfall, envBusy_of_no_rise (weRise_of_weN_eq hwe), envBad,
    if_neg hfall, ← hmem, ← hlat, ← hbad]

/-- Without a shift either, only the device's counters and the free values move on. -/
theorem envStep_of_no_edge (r : Bool) {u : State} (hclk : serRise s u = false) (hsr : u.sr = s.sr)
    (hwe : u.weN = s.weN) (hmem : u.mem = s.mem) (hlat : u.latAddr = s.latAddr) (hbad : u.pulseBad = s.pulseBad) :
    envStep r s u = { u with accWait := envWait s u, busy := s.busy - 1, draws := envDraws r s u } := by
  rw [envStep_of_weN_eq r hwe hmem hlat hbad, envSr_of_no_rise hclk, ← hsr]

/-- `s` after `n` ticks that only count down. The event port's `SINK_VALID`, the access wait and the next free value are
whatever they have become. -/
def waiting (n : Nat) (v : Bool) (w d : Nat) (s : State) : State :=
  { s with dc := s.dc - n, busy := s.busy - n, sinkValid := v, accWait := w, draws := d }

theorem Live.waiting (h : Live c s) (n : Nat) (v : Bool) (w d : Nat) : Live c (waiting n v w d s) :=
  ⟨h.cfg, h.valid, h.rst⟩

theorem openTick_of_rst_nil (hrst : s.rst = []) : openTick s = { s with sinkValid := false } := by
  simp [openTick, hrst]

theorem countDown_eq_waiting (hrst : s.rst = []) :
    countDown s = waiting 1 false (countDown s).accWait (countDown s).draws s := by
  have hopen : countDown s = envStep false s { s with sinkValid := false, dc := s.dc - 1 } := by
    rw [countDown, openTick_of_rst_nil hrst]
  rw [hopen]
  exact envStep_of_no_edge false (serRise_of_serClk_eq rfl) rfl rfl rfl rfl rfl

/-- A tick of a timed state before its last one counts down (R193). -/
theorem Live.step_countDown (h : Live c s) (hq : s.seq ≠ .idle) (hdc : 1 < s.dc) : step s = .next (countDown s) := by
  rw [h.step_busy hq]
  obtain ⟨-, ht⟩ | ⟨hlast, -⟩ := busyTick_cases hq (by omega)
  · rw [ht]
  · omega

/-- The last tick of a timed state takes its exit (R193). -/
theorem Live.step_exit (h : Live c s) (hq : s.seq ≠ .idle) (hdc : s.dc = 1) : step s = .next (exitTick s) := by
  rw [h.step_busy hq]
  obtain ⟨hmore, -⟩ | ⟨-, ht⟩ := busyTick_cases hq (by omega)
  · omega
  · rw [ht]

theorem runFor_waiting (hl : Live c s) (hq : s.seq ≠ .idle) {n : Nat} (hn : n < s.dc) :
    ∃ v w d, runFor n s = .next (waiting n v w d s) := by
  induction n with
  | zero => exact ⟨s.sinkValid, s.accWait, s.draws, rfl⟩
  | succ n ih =>
    obtain ⟨v, w, d, hrun⟩ := ih (by omega)
    have hstep := (hl.waiting n v w d).step_countDown hq (by simp only [waiting]; omega)
    rw [countDown_eq_waiting (hl.waiting n v w d).rst] at hstep
    exact ⟨false, _, _, (runFor_add hrun).trans (runFor_one hstep)⟩

/-- A timed state with `n` ticks left runs out after them, and the last one takes the exit (R193). -/
theorem runFor_exit (hl : Live c s) (hq : s.seq ≠ .idle) {n : Nat} (hn : s.dc = n) (hpos : 1 ≤ n) :
    ∃ v w d, runFor n s = .next (exitTick (waiting (n - 1) v w d s)) := by
  obtain ⟨v, w, d, hrun⟩ := runFor_waiting hl hq (n := n - 1) (by omega)
  have hstep := (hl.waiting (n - 1) v w d).step_exit hq (by simp only [waiting]; omega)
  refine ⟨v, w, d, ?_⟩
  calc runFor n s = runFor (n - 1 + 1) s := by rw [Nat.sub_add_cancel hpos]
    _ = runFor 1 (waiting (n - 1) v w d s) := runFor_add hrun
    _ = .next (exitTick (waiting (n - 1) v w d s)) := runFor_one hstep

end Sys2Proof.Proofs
end

section
/-! PROOFS. PRESENT (spec/42_sequencer.md R200 to R202): each bit of the address is one low and one high half of `SER_CLK`, and
sixteen shifts leave the address in `SR` whatever it held. -/

namespace Sys2Proof.Proofs

open Sys2Proof Sys2Proof.Machine

variable {c : Config} {s t : State} {a : Addr}

/-! ### The shift register's contents -/

/-- The low `n` bits of `sr` are the top `n` bits of `a`, in order. -/
def HoldsTop (a : Addr) (n : Nat) (sr : Addr) : Prop := ∀ i < n, sr.getLsbD i = a.getLsbD (16 - n + i)

theorem holdsTop_zero (a sr : Addr) : HoldsTop a 0 sr := fun i hi => absurd hi (Nat.not_lt_zero i)

theorem HoldsTop.shiftIn {n : Nat} {sr : Addr} (h : HoldsTop a n sr) (hn : n < 16) :
    HoldsTop a (n + 1) (shiftIn sr (a.getLsbD (15 - n))) := by
  intro i hi
  rw [shiftIn_getLsbD]
  split
  · congr 1
    omega
  · rw [decide_eq_true (by omega), Bool.true_and, h (i - 1) (by omega)]
    congr 1
    omega

theorem HoldsTop.eq {sr : Addr} (h : HoldsTop a 16 sr) : sr = a := by
  refine BitVec.eq_of_getLsbD_eq fun i hi => ?_
  simpa using h i hi

/-! ### One bit -/

/-- What the timed ticks of PRESENT leave alone: everything but the sequencer's and the serial port's registers, `SR` and
the device's counters. -/
def presentView (s : State) : State :=
  { s with
    seq := .idle, areg := 0, bi := 0, dc := 0, serData := false, serClk := false, sinkValid := false, sr := 0, busy := 0,
    accWait := 0, draws := 0 }

theorem presentView_envStep (r : Bool) {u : State} (hwe : u.weN = s.weN) (hmem : u.mem = s.mem)
    (hlat : u.latAddr = s.latAddr) (hbad : u.pulseBad = s.pulseBad) :
    presentView (envStep r s u) = presentView u := by
  rw [envStep_of_weN_eq r hwe hmem hlat hbad]
  rfl

/-- Bit `15 - k` of PRESENT `a` is on the serial port. -/
structure BitOnPort (c : Config) (a : Addr) (k : Nat) (s : State) : Prop extends Live c s where
  areg : s.areg = a
  bi : s.bi.toNat = 15 - k
  data : s.serData = a.getLsbD (15 - k)

/-- The first tick of the bit's low half: the bits before it are in `SR` (R201). -/
structure BitLow (c : Config) (a : Addr) (k : Nat) (s : State) : Prop extends BitOnPort c a k s where
  seq : s.seq = .shSetup
  dc : s.dc = c.tSu
  clk : s.serClk = false
  sr : HoldsTop a k s.sr

/-- The first tick of the bit's high half: the bit is in `SR` too (R61, R201). -/
structure BitHigh (c : Config) (a : Addr) (k : Nat) (s : State) : Prop extends BitOnPort c a k s where
  seq : s.seq = .shHigh
  dc : s.dc = c.tHi
  clk : s.serClk = true
  sr : HoldsTop a (k + 1) s.sr

/-- PRESENT `a` is done (R200, R202). -/
structure Presented (c : Config) (a : Addr) (s : State) : Prop extends BitOnPort c a 15 s where
  seq : s.seq = .idle
  clk : s.serClk = false
  sr : s.sr = a

theorem exitTick_shSetup (hrst : s.rst = []) (hq : s.seq = .shSetup) :
    exitTick s = envStep false s (enter .shHigh s.cfg.tHi { s with sinkValid := false, serClk := true }) := by
  simp [exitTick, seqExit, exitShSetup, hq, openTick_of_rst_nil hrst]

theorem exitTick_shHigh_nextBit (hrst : s.rst = []) (hq : s.seq = .shHigh) (hbi : 0 < s.bi.toNat) :
    exitTick s = envStep false s (enter .shSetup s.cfg.tSu
      { s with
        sinkValid := false, serClk := false, bi := s.bi - 1, serData := s.areg.getLsbD (s.bi.toNat - 1) }) := by
  simp [exitTick, seqExit, exitShHigh, hq, openTick_of_rst_nil hrst, hbi]

theorem exitTick_shHigh_last (hrst : s.rst = []) (hq : s.seq = .shHigh) (hbi : s.bi.toNat = 0) :
    exitTick s = envStep false s (toIdle { s with sinkValid := false, serClk := false }) := by
  simp [exitTick, seqExit, exitShHigh, hq, openTick_of_rst_nil hrst, hbi]

theorem bi_sub_one_toNat {b : BitVec 4} (h : 0 < b.toNat) : (b - 1).toNat = b.toNat - 1 := by
  bv_omega

/-- The low half ends in a rising edge of `SER_CLK`, which shifts the bit in. -/
theorem BitLow.run {k : Nat} (h : BitLow c a k s) (hk : k < 16) :
    ∃ t, runFor c.tSu s = .next t ∧ BitHigh c a k t ∧ presentView t = presentView s := by
  obtain ⟨hpos, -⟩ := (configBounds_of_valid h.valid).tSu
  obtain ⟨v, w, d, hrun⟩ := runFor_exit h.toLive (by simp [h.seq]) h.dc hpos
  rw [exitTick_shSetup (h.waiting _ v w d).rst h.seq] at hrun
  refine ⟨_, hrun, ⟨⟨⟨h.cfg, h.valid, h.rst⟩, h.areg, h.bi, h.data⟩, rfl, congrArg Config.tHi h.cfg, rfl, ?_⟩, ?_⟩
  · have hclk : (waiting (c.tSu - 1) v w d s).serClk = false := h.clk
    rw [envStep_sr, envSr_of_rise (by simp [serRise, hclk])]
    simpa only [waiting, h.data] using h.sr.shiftIn hk
  · exact presentView_envStep false rfl rfl rfl rfl

/-- The high half of a bit above bit 0 goes on to the next lower bit. -/
theorem BitHigh.run_nextBit {k : Nat} (h : BitHigh c a k s) (hk : k < 15) :
    ∃ t, runFor c.tHi s = .next t ∧ BitLow c a (k + 1) t ∧ presentView t = presentView s := by
  obtain ⟨hpos, -⟩ := (configBounds_of_valid h.valid).tHi
  obtain ⟨v, w, d, hrun⟩ := runFor_exit h.toLive (by simp [h.seq]) h.dc hpos
  have hbi : 0 < s.bi.toNat := by rw [h.bi]; omega
  rw [exitTick_shHigh_nextBit (h.waiting _ v w d).rst h.seq hbi] at hrun
  refine ⟨_, hrun, ⟨⟨⟨h.cfg, h.valid, h.rst⟩, h.areg, ?_, ?_⟩, rfl, congrArg Config.tSu h.cfg, rfl, ?_⟩, ?_⟩
  · exact (bi_sub_one_toNat hbi).trans (by rw [h.bi]; omega)
  · show s.areg.getLsbD (s.bi.toNat - 1) = _
    rw [h.areg, h.bi, Nat.sub_sub]
  · rw [envStep_sr, envSr_of_no_rise (by simp [serRise])]
    exact h.sr
  · exact presentView_envStep false rfl rfl rfl rfl

/-- The high half of bit 0 ends PRESENT. -/
theorem BitHigh.run_last (h : BitHigh c a 15 s) :
    ∃ t, runFor c.tHi s = .next t ∧ Presented c a t ∧ presentView t = presentView s := by
  obtain ⟨hpos, -⟩ := (configBounds_of_valid h.valid).tHi
  obtain ⟨v, w, d, hrun⟩ := runFor_exit h.toLive (by simp [h.seq]) h.dc hpos
  rw [exitTick_shHigh_last (h.waiting _ v w d).rst h.seq h.bi] at hrun
  refine ⟨_, hrun, ⟨⟨⟨h.cfg, h.valid, h.rst⟩, h.areg, h.bi, h.data⟩, rfl, rfl, ?_⟩, ?_⟩
  · rw [envStep_sr, envSr_of_no_rise (by simp [serRise])]
    exact h.sr.eq
  · exact presentView_envStep false rfl rfl rfl rfl

/-! ### Sixteen bits -/

/-- The first ticks of two neighbouring bits are `T_SU + T_HI` ticks apart. -/
theorem BitLow.run_nextBit {k : Nat} (h : BitLow c a k s) (hk : k < 15) :
    ∃ t, runFor (c.tSu + c.tHi) s = .next t ∧ BitLow c a (k + 1) t ∧ presentView t = presentView s := by
  obtain ⟨u, hu, hhigh, hview⟩ := h.run (by omega)
  obtain ⟨t, ht, hlow, hview'⟩ := hhigh.run_nextBit hk
  exact ⟨t, (runFor_add hu).trans ht, hlow, hview'.trans hview⟩

theorem BitLow.run_bits (h : BitLow c a 0 s) {k : Nat} (hk : k < 16) :
    ∃ t, runFor (k * (c.tSu + c.tHi)) s = .next t ∧ BitLow c a k t ∧ presentView t = presentView s := by
  induction k with
  | zero => exact ⟨s, by rw [Nat.zero_mul, runFor_zero], h, rfl⟩
  | succ k ih =>
    obtain ⟨u, hu, hlow, hview⟩ := ih (by omega)
    obtain ⟨t, ht, hlow', hview'⟩ := hlow.run_nextBit (by omega)
    exact ⟨t, by rw [Nat.succ_mul, runFor_add hu, ht], hlow', hview'.trans hview⟩

/-- The timed part of PRESENT (R202). -/
theorem BitLow.run_present (h : BitLow c a 0 s) :
    ∃ t, runFor (16 * (c.tSu + c.tHi)) s = .next t ∧ Presented c a t ∧ presentView t = presentView s := by
  obtain ⟨u, hu, hlow, hview⟩ := h.run_bits (k := 15) (by omega)
  obtain ⟨v, hv, hhigh, hview'⟩ := hlow.run (by omega)
  obtain ⟨t, ht, hdone, hview''⟩ := hhigh.run_last
  refine ⟨t, ?_, hdone, hview''.trans (hview'.trans hview)⟩
  calc runFor (16 * (c.tSu + c.tHi)) s = runFor (15 * (c.tSu + c.tHi) + (c.tSu + c.tHi)) s := by rw [← Nat.succ_mul]
    _ = runFor (c.tSu + c.tHi) u := runFor_add hu
    _ = runFor c.tHi v := runFor_add hv
    _ = .next t := ht

/-- The serial port inside a bit: the bit on `SER_DATA`, `SER_CLK` low for `T_SU` ticks and then high (R201). -/
theorem BitLow.port {k j : Nat} (h : BitLow c a k s) (hk : k < 16) (hj : j < c.tSu + c.tHi) :
    ∃ u, runFor j s = .next u ∧ u.seq ≠ .idle ∧ u.serData = a.getLsbD (15 - k) ∧ u.serClk = decide (c.tSu ≤ j) := by
  by_cases hlow : j < c.tSu
  · have hbusy : s.seq ≠ .idle := by simp [h.seq]
    obtain ⟨v, w, d, hrun⟩ := runFor_waiting h.toLive hbusy (n := j) (h.dc ▸ hlow)
    exact ⟨_, hrun, hbusy, h.data, h.clk.trans (decide_eq_false (by omega)).symm⟩
  · obtain ⟨t, ht, hhigh, -⟩ := h.run hk
    have hbusy : t.seq ≠ .idle := by simp [hhigh.seq]
    obtain ⟨v, w, d, hrun⟩ := runFor_waiting hhigh.toLive hbusy (n := j - c.tSu) (by rw [hhigh.dc]; omega)
    refine ⟨waiting (j - c.tSu) v w d t, ?_, hbusy, hhigh.data, hhigh.clk.trans (decide_eq_true (by omega)).symm⟩
    calc runFor j s = runFor (c.tSu + (j - c.tSu)) s := by rw [Nat.add_sub_cancel' (by omega)]
      _ = runFor (j - c.tSu) t := runFor_add ht
      _ = _ := hrun

/-! ### The command -/

/-- The tick that accepts PRESENT puts bit 15 on the serial port and leaves the device and the rest of the bus alone. -/
theorem present_accepted (h : Accepts s (.present a)) :
    ∃ t, step s = .next t ∧ BitLow s.cfg a 0 t ∧ t.dOut = s.dOut ∧ t.dir = s.dir ∧ t.weN = s.weN ∧ t.oeN = s.oeN ∧
      t.rdata = s.rdata ∧ t.latAddr = s.latAddr ∧ t.mem = s.mem := by
  obtain ⟨hvalid, hrst, hq, hi⟩ := h
  obtain ⟨hcfg, hrdata, -, -, -, -, -, -, hdOut, hdir, hwe, hoe, hrst', -⟩ :=
    acceptState_frame s
  have hl : Live s.cfg s := ⟨rfl, hvalid, hrst⟩
  have hstep := hl.step_accept hq hi rfl
  have hlive := hl.of_step hstep hrst'
  refine ⟨_, hstep, ⟨⟨hlive, rfl, rfl, rfl⟩, rfl, congrArg Config.tSu hcfg, rfl, holdsTop_zero _ _⟩, ?_⟩
  obtain ⟨-, hlat', hmem', -⟩ := step_next_environment hstep
  exact ⟨hdOut, hdir, hwe, hoe, hrdata, hlat'.trans (envLat_of_no_fall (not_weFall_of_weN_eq hwe)),
    hmem'.trans (envMem_of_no_edge _ hwe)⟩

/-- Settles O33: the tick of acceptance, then sixteen bits of one low and one high half each. -/
theorem presentShiftsAddress : Obligations.PresentShiftsAddress := by
  intro s a h
  obtain ⟨s₁, hstep, hlow, hdOut, hdir, hwe, hoe, hrdata, hlat, hmem⟩ := present_accepted h
  have hone := runFor_one hstep
  constructor
  · intro k j hk hj
    obtain ⟨u, hu, hbit, -⟩ := hlow.run_bits hk
    obtain ⟨t, ht, hport⟩ := hbit.port hk hj
    refine ⟨t, ?_, hport⟩
    rw [Nat.add_assoc, runFor_add hone, runFor_add hu, ht]
  · obtain ⟨t, ht, hdone, hview⟩ := hlow.run_present
    have hbi : t.bi = 0#4 := BitVec.eq_of_toNat_eq hdone.bi
    refine ⟨t, (runFor_add hone).trans ht, hdone.seq, hdone.sr, hdone.data, hdone.clk, hdone.areg, hbi, ?_⟩
    refine ⟨(congrArg State.dOut hview).trans hdOut, (congrArg State.dir hview).trans hdir,
      (congrArg State.weN hview).trans hwe, (congrArg State.oeN hview).trans hoe,
      (congrArg State.rdata hview).trans hrdata, (congrArg State.latAddr hview).trans hlat, fun x => ?_⟩
    exact congrArg (memRead · x) ((congrArg State.mem hview).trans hmem)

end Sys2Proof.Proofs
end

section
/-! PROOFS. The class of an address writes the byte the whole encoder gives it (spec/43_byte_fsm.md R234): each class of
the decoder (R131, R170) is one branch of `ENC_DISP` (R132) or `ENC_CS` (R172). -/

namespace Sys2Proof.Proofs

open Sys2Proof Sys2Proof.Machine

variable (c : Config) {a : Addr}

/-! ### The display encoder -/

theorem setWidth_eq_field (a : Addr) (n : Nat) : a.setWidth n = field a 0 n := by
  apply BitVec.eq_of_toNat_eq
  simp [field_toNat]

theorem negFlag_eq (v : BitVec 12) : negFlag v = decide (v.toInt < 0) := rfl

theorem magnitude_eq_natAbs (v : BitVec 12) : magnitude v = v.toInt.natAbs := by
  have hneg : negFlag v = true ↔ v.toInt < 0 := by rw [negFlag_eq, decide_eq_true_eq]
  unfold magnitude signedValue
  by_cases h : v.toInt < 0
  · rw [if_pos (hneg.mpr h)]
    omega
  · rw [if_neg (mt hneg.mp h)]
    omega

/-- The guard bit (R90). -/
theorem guard_iff (a : Addr) : field a 15 1 = 1#1 ↔ 0x8000 ≤ a.toNat := by
  simp only [field_eq_iff, BitVec.toNat_ofNat]
  omega

/-- The mode bit below the guard (R90). -/
theorem octal_iff (hlow : ¬ 0x8000 ≤ a.toNat) : field a 14 1 = 0#1 ↔ a.toNat < 0x4000 := by
  simp only [field_eq_iff, BitVec.toNat_ofNat]
  omega

/-- The digit slot `S` of an address (R90, R132). -/
theorem slot_eq (a : Addr) : (a.toNat >>> 12) % 4 = (field a 12 2).toNat := by
  simp [field_toNat, Nat.shiftRight_eq_div_pow]

theorem encDisp_of_guard (h : 0x8000 ≤ a.toNat) : encDisp c a = blank := if_pos h

theorem encDisp_of_octal (h : a.toNat < 0x4000) : encDisp c a = byteOct c (field a 12 2) (field a 0 12) := by
  have hguard : ¬ 0x8000 ≤ a.toNat := by omega
  simp [encDisp, byteOct, octDigit, slot_eq, setWidth_eq_field, h, hguard]

theorem encDisp_of_dec0 (hlow : ¬ 0x8000 ≤ a.toNat) (hmode : ¬ a.toNat < 0x4000) (hslot : field a 12 2 = 0#2) :
    encDisp c a = byteDec0 c (field a 0 12) := by
  by_cases hneg : (field a 0 12).toInt < 0 <;>
    simp [encDisp, byteDec0, decDigit, slot_eq, setWidth_eq_field, magnitude_eq_natAbs, negFlag_eq, signMark, hlow,
      hmode, hslot, hneg]

theorem encDisp_of_decHigh (hlow : ¬ 0x8000 ≤ a.toNat) (hmode : ¬ a.toNat < 0x4000) (hslot : field a 12 2 ≠ 0#2) :
    encDisp c a = byteDecHigh c (field a 12 2).toNat (field a 0 12) := by
  have hpos : ¬ (field a 12 2).toNat = 0 := fun h => hslot (BitVec.eq_of_toNat_eq h)
  simp [encDisp, byteDecHigh, decDigit, slot_eq, setWidth_eq_field, magnitude_eq_natAbs, hlow, hmode, hpos]

/-- The class of a display address is accepted as the write of `ENC_DISP` (R131 to R137). -/
theorem exec_decodeDisp_eq_encDisp (a : Addr) (s : State) :
    exec (decodeDisp a) s = .next (acceptWrite (encDisp s.cfg a) s) := by
  unfold decodeDisp
  by_cases hguard : 0x8000 ≤ a.toNat
  · rw [if_pos ((guard_iff a).mpr hguard), encDisp_of_guard _ hguard]
    rfl
  rw [if_neg (mt (guard_iff a).mp hguard)]
  by_cases hmode : a.toNat < 0x4000
  · rw [if_pos ((octal_iff hguard).mpr hmode), encDisp_of_octal _ hmode]
    rfl
  rw [if_neg (mt (octal_iff hguard).mp hmode)]
  by_cases h0 : field a 12 2 = 0#2
  · rw [if_pos h0, encDisp_of_dec0 _ hguard hmode h0]
    rfl
  rw [if_neg h0, encDisp_of_decHigh _ hguard hmode h0]
  by_cases h1 : field a 12 2 = 1#2
  · rw [if_pos h1, h1]
    rfl
  rw [if_neg h1]
  by_cases h2 : field a 12 2 = 2#2
  · rw [if_pos h2, h2]
    rfl
  have h3 : field a 12 2 = 3#2 := by bv_omega
  rw [if_neg h2, h3]
  rfl

/-! ### The control-store encoder -/

theorem encCs_of_beyond (h : 0x800 ≤ a.toNat) : encCs c a = noSignal := if_pos h

/-- The bank `B` of an address (R91, R172). -/
theorem bank_eq (a : Addr) : (a.toNat >>> 9) % 4 = (field a 9 2).toNat := by
  simp [field_toNat, Nat.shiftRight_eq_div_pow]

theorem encCs_of_bank3 (h : a.toNat < 0x800) (hbank : field a 9 2 = 3#2) : encCs c a = noSignal := by
  have hin : ¬ 0x800 ≤ a.toNat := by omega
  simp [encCs, bank_eq, hin, hbank, noSignal]

theorem encCs_of_bank (h : a.toNat < 0x800) (hbank : field a 9 2 ≠ 3#2) :
    encCs c a = byteBank c (field a 9 2).toNat (field a 6 3) (field a 0 6) := by
  have hin : ¬ 0x800 ≤ a.toNat := by omega
  have hnot : ¬ (field a 9 2).toNat = 3 := fun h => hbank (BitVec.eq_of_toNat_eq h)
  have hop : BitVec.ofNat 6 a.toNat = field a 0 6 := by
    apply BitVec.eq_of_toNat_eq; simp [field_toNat]
  have hcyc : BitVec.ofNat 3 (a.toNat >>> 6) = field a 6 3 := by
    apply BitVec.eq_of_toNat_eq; simp [field_toNat, Nat.shiftRight_eq_div_pow]
  apply BitVec.eq_of_toNat_eq
  simp [encCs, bank_eq, hin, hnot, hop, hcyc, byteBank, bankByte]

/-- Above the table one of the five high bits is set (R103). -/
theorem high_bit_set (h : 0x800 ≤ a.toNat) :
    field a 15 1 = 1#1 ∨ field a 14 1 = 1#1 ∨ field a 13 1 = 1#1 ∨ field a 12 1 = 1#1 ∨ field a 11 1 = 1#1 := by
  simp only [field_eq_iff, BitVec.toNat_ofNat]
  omega

/-- Inside the table none is. -/
theorem high_bit_clear (h : a.toNat < 0x800) {i : Nat} (hi : 11 ≤ i) : ¬ field a i 1 = 1#1 := by
  have hpow : 2 ^ 11 ≤ 2 ^ i := Nat.pow_le_pow_right (by omega) hi
  simp [field_eq_iff, Nat.div_eq_of_lt (show a.toNat < 2 ^ i by omega)]

/-- The class of a control-store address is accepted as the write of `ENC_CS` (R170 to R175). -/
theorem exec_decodeCs_eq_encCs (a : Addr) (s : State) :
    exec (decodeCs a) s = .next (acceptWrite (encCs s.cfg a) s) := by
  unfold decodeCs
  by_cases hin : a.toNat < 0x800
  · rw [if_neg (high_bit_clear hin (by omega)), if_neg (high_bit_clear hin (by omega)),
      if_neg (high_bit_clear hin (by omega)), if_neg (high_bit_clear hin (by omega)),
      if_neg (high_bit_clear hin (by omega))]
    by_cases h3 : field a 9 2 = 3#2
    · rw [encCs_of_bank3 _ hin h3, h3]
      rfl
    rw [encCs_of_bank _ hin h3]
    by_cases h0 : field a 9 2 = 0#2
    · rw [if_pos h0, h0]
      rfl
    rw [if_neg h0]
    by_cases h1 : field a 9 2 = 1#2
    · rw [if_pos h1, h1]
      rfl
    have h2 : field a 9 2 = 2#2 := by bv_omega
    rw [if_neg h1, if_pos h2, h2]
    rfl
  · rw [encCs_of_beyond _ (Nat.le_of_not_lt hin)]
    have hset := high_bit_set (Nat.le_of_not_lt hin)
    split_ifs with h15 h14 h13 h12 h11
    iterate 5 rfl
    all_goals simp [h15, h14, h13, h12, h11] at hset

/-- In either build the class of an address is accepted as the write of `ENC` (R234). -/
theorem exec_decodeAddr_eq_enc (a : Addr) (s : State) :
    exec (decodeAddr s.cfg.variant a) s = .next (acceptWrite (enc s.cfg a) s) := by
  cases h : s.cfg.variant with
  | disp => rw [decodeAddr, enc, h]; exact exec_decodeDisp_eq_encDisp a s
  | cs => rw [decodeAddr, enc, h]; exact exec_decodeCs_eq_encCs a s

end Sys2Proof.Proofs
end

section
/-! PROOFS. The timed part of WRITE (spec/42_sequencer.md R206): the fall of `WE_N` latches the address, its rise stores
`D_OUT` there (spec/20_memory.md R63), and the hold time follows. -/

namespace Sys2Proof.Proofs

open Sys2Proof Sys2Proof.Machine

variable {c : Config} {s t : State}

/-- What the timed ticks of WRITE leave alone: everything but the sequencer's registers, `WE_N`, and the device. -/
def writeView (s : State) : State :=
  { s with
    seq := .idle, dc := 0, weN := true, sinkValid := false, mem := [], latAddr := 0, busy := 0, accWait := 0,
    pulseBad := false, draws := 0 }

theorem writeView_envStep (r : Bool) {u : State} (hclk : u.serClk = s.serClk) (hsr : u.sr = s.sr) :
    writeView (envStep r s u) = writeView u := by
  have hshift : envSr s u = u.sr := (envSr_of_no_rise (serRise_of_serClk_eq hclk)).trans hsr.symm
  rw [envStep, hshift]
  rfl

/-- The data lines carry the block's byte. -/
structure Driving (c : Config) (s : State) : Prop extends Live c s where
  dir : s.dir = true
  oeN : s.oeN = true

theorem bus_of_driving (h : Driving c s) : bus s = s.dOut := by
  simp [bus, busDriven, h.dir, h.oeN]

/-- A pulse without violation that ends while the block drives stores `D_OUT` (R63, R205). -/
theorem envMem_of_driven_rise (h : Driving c s) (hgood : s.pulseBad = false) (hrise : weRise s t = true) :
    envMem false s t = memWrite c s.mem s.latAddr s.dOut := by
  rw [envMem_of_rise false hrise, pulseByte_of_good h.oeN hgood, bus_of_driving h, h.cfg]

/-- The first tick of the settle time, on a device whose write cycle ends within it (R305). -/
structure SettleStart (c : Config) (s : State) : Prop extends Driving c s where
  seq : s.seq = .wrSettle
  dc : s.dc = c.tSettle
  weN : s.weN = true
  busy : s.busy < c.tSettle

/-- The first tick of a write pulse at device address `a`. -/
structure PulseStart (c : Config) (a : Nat) (s : State) : Prop extends Driving c s where
  seq : s.seq = .wrLow
  dc : s.dc = c.tWe
  weN : s.weN = false
  lat : s.latAddr = a
  good : s.pulseBad = false

/-- The first tick of the hold time. -/
structure HoldStart (c : Config) (s : State) : Prop extends Driving c s where
  seq : s.seq = .wrHold
  dc : s.dc = c.tHold
  weN : s.weN = true

theorem exitTick_wrSettle (hrst : s.rst = []) (hq : s.seq = .wrSettle) :
    exitTick s = envStep false s (enter .wrLow s.cfg.tWe { s with sinkValid := false, weN := false }) := by
  simp [exitTick, seqExit, exitWrSettle, hq, openTick_of_rst_nil hrst]

theorem exitTick_wrLow (hrst : s.rst = []) (hq : s.seq = .wrLow) :
    exitTick s = envStep false s (enter .wrHold s.cfg.tHold { s with sinkValid := false, weN := true }) := by
  simp [exitTick, seqExit, exitWrLow, hq, openTick_of_rst_nil hrst]

theorem exitTick_wrHold (hrst : s.rst = []) (hq : s.seq = .wrHold) :
    exitTick s = envStep false s (toIdle { s with sinkValid := false }) := by
  simp [exitTick, seqExit, exitWrHold, hq, openTick_of_rst_nil hrst]

/-- The settle time ends in the fall of `WE_N`, on an idle device. -/
theorem SettleStart.run (h : SettleStart c s) :
    ∃ t, runFor c.tSettle s = .next t ∧ PulseStart c (devAddr c s.sr) t ∧ t.mem = s.mem ∧
      writeView t = writeView s := by
  obtain ⟨hpos, -⟩ := (configBounds_of_valid h.valid).tSettle
  obtain ⟨v, w, d, hrun⟩ := runFor_exit h.toLive (by simp [h.seq]) h.dc hpos
  rw [exitTick_wrSettle (h.waiting _ v w d).rst h.seq] at hrun
  have hidle : s.busy - (c.tSettle - 1) = 0 := by have := h.busy; omega
  refine ⟨_, hrun, ⟨⟨⟨h.cfg, h.valid, h.rst⟩, h.dir, h.oeN⟩, rfl, congrArg Config.tWe h.cfg, rfl, ?_, ?_⟩, ?_, ?_⟩
  · exact (envLat_of_fall ((weFall_iff ..).mpr ⟨h.weN, rfl⟩) h.oeN).trans (congrArg (devAddr · s.sr) h.cfg)
  · exact envBad_of_fall_idle ((weFall_iff ..).mpr ⟨h.weN, rfl⟩) hidle
  · exact envMem_of_fall_idle false ((weFall_iff ..).mpr ⟨h.weN, rfl⟩) hidle
  · exact writeView_envStep false rfl rfl

/-- The pulse ends in the rise of `WE_N`, which stores the byte on the lines. -/
theorem PulseStart.run {a : Nat} (h : PulseStart c a s) :
    ∃ t, runFor c.tWe s = .next t ∧ HoldStart c t ∧ t.mem = memWrite c s.mem a s.dOut ∧
      writeView t = writeView s := by
  obtain ⟨hpos, -⟩ := (configBounds_of_valid h.valid).tWe
  obtain ⟨v, w, d, hrun⟩ := runFor_exit h.toLive (by simp [h.seq]) h.dc hpos
  have hdrive : Driving c (waiting (c.tWe - 1) v w d s) := ⟨h.waiting _ v w d, h.dir, h.oeN⟩
  rw [exitTick_wrLow hdrive.rst h.seq] at hrun
  refine ⟨_, hrun, ⟨⟨⟨h.cfg, h.valid, h.rst⟩, h.dir, h.oeN⟩, rfl, congrArg Config.tHold h.cfg, rfl⟩, ?_, ?_⟩
  · exact (envMem_of_driven_rise hdrive h.good ((weRise_iff ..).mpr ⟨h.weN, rfl⟩)).trans
      (congrArg (memWrite c s.mem · s.dOut) h.lat)
  · exact writeView_envStep false rfl rfl

theorem HoldStart.run (h : HoldStart c s) :
    ∃ t, runFor c.tHold s = .next t ∧ t.seq = .idle ∧ t.mem = s.mem ∧ writeView t = writeView s := by
  obtain ⟨hpos, -⟩ := (configBounds_of_valid h.valid).tHold
  obtain ⟨v, w, d, hrun⟩ := runFor_exit h.toLive (by simp [h.seq]) h.dc hpos
  rw [exitTick_wrHold (h.waiting _ v w d).rst h.seq] at hrun
  exact ⟨_, hrun, rfl, envMem_of_no_edge false rfl, writeView_envStep false rfl rfl⟩

/-- The timed part of WRITE stores `D_OUT` at the presented address (R205, R206). -/
theorem SettleStart.run_write (h : SettleStart c s) :
    ∃ t, runFor (c.tSettle + c.tWe + c.tHold) s = .next t ∧ t.seq = .idle ∧
      t.mem = memWrite c s.mem (devAddr c s.sr) s.dOut ∧ writeView t = writeView s := by
  obtain ⟨u, hu, hpulse, hmem, hview⟩ := h.run
  obtain ⟨v, hv, hhold, hmem', hview'⟩ := hpulse.run
  obtain ⟨t, ht, hidle, hmem'', hview''⟩ := hhold.run
  have hbyte : u.dOut = s.dOut := (congrArg State.dOut hview :)
  refine ⟨t, ?_, hidle, by rw [hmem'', hmem', hmem, hbyte], hview''.trans (hview'.trans hview)⟩
  calc runFor (c.tSettle + c.tWe + c.tHold) s = runFor (c.tWe + c.tHold) u := by rw [Nat.add_assoc, runFor_add hu]
    _ = runFor c.tHold v := runFor_add hv
    _ = .next t := ht

end Sys2Proof.Proofs
end

section
/-! PROOFS. The Programming sweep (spec/43_byte_fsm.md R232 to R235, R242): the turnaround at the start of a run, and for
each address the PRESENT, the WRITE of its byte and the tick that counts on. -/

namespace Sys2Proof.Proofs

open Sys2Proof Sys2Proof.Machine

variable {c : Config} {s t : State} {m₀ : Memory} {a n : Nat}

/-- A state of a run whose controller drives the port, between two commands. -/
structure Sweeping (c : Config) (q : Ctrl) (s : State) : Prop extends Live c s where
  inv : Inv s
  drive : s.drive = .controller
  seq : s.seq = .idle
  ctrl : s.ctrl = q

/-- The device's byte at `x` once the addresses of the programmed range below `n` are written, over the contents `m₀`. -/
def imageByte (c : Config) (m₀ : Memory) (n x : Nat) : Byte :=
  if c.pBegin ≤ x ∧ x < n then enc c (BitVec.ofNat 16 x) else memRead m₀ x

/-- The device holds the image of the addresses below `n`, and its old contents elsewhere. -/
def HoldsImage (c : Config) (m₀ : Memory) (n : Nat) (m : Memory) : Prop := ∀ x, memRead m x = imageByte c m₀ n x

theorem holdsImage_begin (c : Config) (m : Memory) : HoldsImage c m c.pBegin m := by
  intro x
  rw [imageByte, if_neg (by omega)]

theorem HoldsImage.of_mem_eq {m m' : Memory} (h : HoldsImage c m₀ n m) (hm : m' = m) : HoldsImage c m₀ n m' := hm ▸ h

/-- Writing the next address's byte extends the image by it. -/
theorem HoldsImage.write {m : Memory} (h : HoldsImage c m₀ a m) (hw : c.devWritable = true) (ha : c.pBegin ≤ a) :
    HoldsImage c m₀ (a + 1) (memWrite c m a (enc c (BitVec.ofNat 16 a))) := by
  intro x
  by_cases hx : x = a
  · subst hx
    rw [memRead_memWrite_same hw, imageByte, if_pos (by omega)]
  · have hsame : c.pBegin ≤ x ∧ x < a + 1 ↔ c.pBegin ≤ x ∧ x < a := by omega
    rw [memRead_memWrite_other c m _ hx, h x, imageByte, imageByte]
    simp only [hsame]

/-- Between two commands of the sweep: `AC` at `a`, the image of the addresses below `n` in the device. -/
structure SweepAt (c : Config) (m₀ : Memory) (q : Ctrl) (a n : Nat) (s : State) : Prop extends Sweeping c q s where
  ac : s.ac.toNat = a
  image : HoldsImage c m₀ n s.mem

theorem Sweeping.portDecoded_eq {q : Ctrl} (h : Sweeping c q s) : portDecoded s = .instr (controllerCommand s) := by
  rw [portDecoded, h.drive]

theorem Sweeping.acceptState_eq {q : Ctrl} (h : Sweeping c q s) :
    acceptState s = controllerNext { s with sinkValid := false } := by
  rw [acceptState_of_controller h.drive, openTick_of_rst_nil h.rst]

theorem controllerNext_drive (s : State) : (controllerNext s).drive = s.drive := by
  cases h : s.ctrl
  case pAddr => by_cases hlt : s.ac.toNat < s.cfg.pEnd <;> simp [controllerNext, h, hlt]
  case pDone => by_cases hp : (s.ac.toNat + 1) % s.cfg.pageSize = 0 <;> simp [controllerNext, h, hp]
  case vAddr => by_cases hlt : s.ac.toNat < s.cfg.vEnd <;> simp [controllerNext, h, hlt]
  all_goals simp [controllerNext, h]

theorem acAddr_eq (h : s.ac.toNat = a) : acAddr s = BitVec.ofNat 16 a := by
  apply BitVec.eq_of_toNat_eq
  simp [acAddr, field_toNat, h]

/-- The tick that accepts the controller's command. -/
theorem Sweeping.step_eq {q : Ctrl} (h : Sweeping c q s) {i : Instr} {v u : State} (hi : controllerCommand s = i)
    (hv : controllerNext { s with sinkValid := false } = v) (hx : exec i v = .next u) :
    step s = .next (envStep false s u) :=
  h.step_accept h.seq (hi ▸ h.portDecoded_eq) (by rwa [h.acceptState_eq, hv])

/-! ### The turnaround -/

theorem exitTick_turnW (hrst : s.rst = []) (hq : s.seq = .turnW) :
    exitTick s = envStep false s (toIdle { s with sinkValid := false, dir := true }) := by
  simp [exitTick, seqExit, exitTurnW, hq, openTick_of_rst_nil hrst]

theorem inv_of_runStart (h : RunStart s) : Inv s := by
  obtain ⟨⟨-, hctrl, -, hseq, -, -, hdc, -, hclk, -, hdir, hwe, hoe, -⟩, -, -, hvalid, -, hdev, hcnt, -⟩ := h
  refine (inv_iff s).mpr ⟨hvalid, hdev, hcnt, ⟨?_, fun _ => hoe, fun h => ?_⟩, ?_, fun _ => ?_⟩
  · rw [hdc]
    exact Nat.two_pow_pos _
  · rw [hoe] at h
    cases h
  · rw [hseq]
    exact ⟨hwe, hclk⟩
  · rw [hctrl]
    exact hseq

theorem controllerNext_idle (h : s.ctrl = .idle) :
    controllerNext s = emit .start { s with ac := BitVec.ofNat 17 s.cfg.pBegin, ctrl := .pAddr } := by
  simp [controllerNext, h]

/-- The first tick of a run emits START and accepts TURN_WRITE (R232). -/
theorem Sweeping.idle_tick (h : Sweeping c .idle s) :
    ∃ t, step s = .next t ∧ Live c t ∧ t.seq = .turnW ∧ t.dc = c.tTurn ∧ t.ctrl = .pAddr ∧
      t.drive = .controller ∧ t.ac = BitVec.ofNat 17 c.pBegin ∧ t.mem = s.mem := by
  have hcmd : controllerCommand s = .turnWrite 0 := by simp [controllerCommand, h.seq, h.ctrl]
  have hstep := h.step_eq hcmd (controllerNext_idle h.ctrl) rfl
  exact ⟨_, hstep, h.of_step hstep (by simp [emit, h.rst]), rfl, congrArg Config.tTurn h.cfg, rfl, h.drive,
    congrArg (fun c : Config => BitVec.ofNat 17 c.pBegin) h.cfg, envMem_of_no_edge false rfl⟩

/-- A run starts its sweep after `1 + T_TURN` ticks (R218, R232). -/
theorem sweep_starts (h : RunStart s) :
    ∃ t, runFor (1 + s.cfg.tTurn) s = .next t ∧ SweepAt s.cfg s.mem .pAddr s.cfg.pBegin s.cfg.pBegin t := by
  have hinv := inv_of_runStart h
  obtain ⟨⟨-, hctrl, -, hseq, -⟩, hrst, hdrive, hvalid, -⟩ := h
  have hb := configBounds_of_valid hvalid
  have hs : Sweeping s.cfg .idle s := ⟨⟨rfl, hvalid, hrst⟩, hinv, hdrive, hseq, hctrl⟩
  obtain ⟨u, hstep, hlive, hturn, hdc, hctrl', hdrive', hac, hmem⟩ := hs.idle_tick
  obtain ⟨v, w, d, hrun⟩ := runFor_exit hlive (by simp [hturn]) hdc hb.tTurn.1
  rw [exitTick_turnW (hlive.waiting _ v w d).rst hturn] at hrun
  have hall := (runFor_add (runFor_one hstep)).trans hrun
  refine ⟨_, hall, ⟨⟨⟨hlive.cfg, hvalid, hlive.rst⟩, runFor_keeps_inv hinv hall, hdrive', rfl, hctrl'⟩, ?_, ?_⟩⟩
  · have hfits : s.cfg.pBegin < 2 ^ 17 := by
      have := hb.pBegin_le; have := hb.pEnd_le; have := hb.size_le
      omega
    exact (congrArg BitVec.toNat hac).trans (by rw [BitVec.toNat_ofNat, Nat.mod_eq_of_lt hfits])
  · exact (holdsImage_begin s.cfg s.mem).of_mem_eq ((envMem_of_no_edge false rfl).trans hmem)

/-! ### One address -/

theorem controllerNext_pAddr (h : s.ctrl = .pAddr) (hlt : s.ac.toNat < s.cfg.pEnd) :
    controllerNext s = { s with ctrl := .pData } := by
  simp [controllerNext, h, hlt]

theorem controllerNext_pData (h : s.ctrl = .pData) : controllerNext s = { s with ctrl := .pDone } := by
  simp [controllerNext, h]

/-- The tick that accepts PRESENT of the address (R233). -/
theorem Sweeping.pAddr_tick (h : Sweeping c .pAddr s) (hlt : s.ac.toNat < c.pEnd) :
    ∃ t, step s = .next t ∧ BitLow c (acAddr s) 0 t ∧ t.ctrl = .pData ∧ t.drive = .controller ∧
      t.ac = s.ac ∧ t.mem = s.mem := by
  have hlt' : s.ac.toNat < s.cfg.pEnd := h.cfg ▸ hlt
  have hcmd : controllerCommand s = .present (acAddr s) := by simp [controllerCommand, h.seq, h.ctrl, hlt']
  have hstep := h.step_eq hcmd (controllerNext_pAddr h.ctrl hlt') rfl
  have hlive := h.of_step hstep (by simp [h.rst])
  exact ⟨_, hstep, ⟨⟨hlive, rfl, rfl, rfl⟩, rfl, congrArg Config.tSu h.cfg, rfl, holdsTop_zero _ _⟩, rfl, h.drive, rfl,
    envMem_of_no_edge false rfl⟩

/-- PRESENT of the sweep: the address is in `SR` (R233). -/
theorem SweepAt.run_present (h : SweepAt c m₀ .pAddr a n s) (ha : a < c.pEnd) :
    ∃ t, runFor (1 + 16 * (c.tSu + c.tHi)) s = .next t ∧ SweepAt c m₀ .pData a n t ∧ t.sr = BitVec.ofNat 16 a := by
  obtain ⟨u, hstep, hlow, hctrl, hdrive, hac, hmem⟩ := h.pAddr_tick (h.ac ▸ ha)
  obtain ⟨t, hrun, hdone, hview⟩ := hlow.run_present
  have hall := (runFor_add (runFor_one hstep)).trans hrun
  refine ⟨t, hall, ⟨⟨hdone.toLive, runFor_keeps_inv h.inv hall, (congrArg State.drive hview).trans hdrive, hdone.seq,
    (congrArg State.ctrl hview).trans hctrl⟩, ?_, ?_⟩, hdone.sr.trans (acAddr_eq h.ac)⟩
  · exact (congrArg (·.ac.toNat) hview).trans ((congrArg BitVec.toNat hac).trans h.ac)
  · exact h.image.of_mem_eq ((congrArg State.mem hview).trans hmem)

/-- The tick that accepts the WRITE of the address's byte (R234). -/
theorem Sweeping.pData_tick (h : Sweeping c .pData s) :
    ∃ t, step s = .next t ∧ SettleStart c t ∧ t.dOut = enc c (acAddr s) ∧ t.ctrl = .pDone ∧
      t.drive = .controller ∧ t.ac = s.ac ∧ t.sr = s.sr ∧ t.mem = s.mem := by
  have hcmd : controllerCommand s = decodeAddr s.cfg.variant (acAddr s) := by
    simp [controllerCommand, h.seq, h.ctrl]
  have hstep := h.step_eq hcmd (controllerNext_pData h.ctrl) 
    (exec_decodeAddr_eq_enc (acAddr s) { s with sinkValid := false, ctrl := .pDone })
  have hlive := h.of_step hstep (by simp [h.rst])
  obtain ⟨-, -, -, -, hrow, -⟩ := (inv_iff _).mp (stepKeepsInvariant _ _ h.inv hstep)
  obtain ⟨hwe, -, hdir, hoe, hbusy⟩ := hrow
  have hdc := congrArg Config.tSettle h.cfg
  exact ⟨_, hstep, ⟨⟨hlive, hdir, hoe⟩, rfl, hdc, hwe, hdc ▸ hbusy⟩, congrArg (enc · (acAddr s)) h.cfg, rfl, h.drive, rfl,
    envSr_of_no_rise (serRise_of_serClk_eq rfl), envMem_of_no_edge false rfl⟩

theorem devAddr_ofNat (ha : a < c.deviceSize) (hsize : c.deviceSize ≤ 65536) : devAddr c (BitVec.ofNat 16 a) = a := by
  rw [devAddr, BitVec.toNat_ofNat, Nat.mod_eq_of_lt (by omega : a < 2 ^ 16), Nat.mod_eq_of_lt ha]

/-- WRITE of the sweep: the address's byte is in the device (R205, R234). -/
theorem SweepAt.run_write (h : SweepAt c m₀ .pData a a s) (hw : c.devWritable = true) (hbegin : c.pBegin ≤ a)
    (ha : a < c.pEnd) (hsr : s.sr = BitVec.ofNat 16 a) :
    ∃ t, runFor (1 + (c.tSettle + c.tWe + c.tHold)) s = .next t ∧ SweepAt c m₀ .pDone a (a + 1) t := by
  obtain ⟨u, hstep, hsettle, hbyte, hctrl, hdrive, hac, hsr', hmem⟩ := h.pData_tick
  obtain ⟨t, hrun, hidle, hmem', hview⟩ := hsettle.run_write
  have hall := (runFor_add (runFor_one hstep)).trans hrun
  have hb := configBounds_of_valid h.valid
  have haddr : devAddr c u.sr = a := by
    rw [hsr', hsr]
    exact devAddr_ofNat (ha.trans_le hb.pEnd_le) hb.size_le
  have hlive : Live c t := ⟨(congrArg State.cfg hview).trans hsettle.cfg, h.valid,
    (congrArg State.rst hview).trans hsettle.rst⟩
  refine ⟨t, hall, ⟨⟨hlive, runFor_keeps_inv h.inv hall, (congrArg State.drive hview).trans hdrive, hidle,
    (congrArg State.ctrl hview).trans hctrl⟩, ?_, ?_⟩⟩
  · exact (congrArg (·.ac.toNat) hview).trans ((congrArg BitVec.toNat hac).trans h.ac)
  · rw [hmem', haddr, hmem, hbyte, acAddr_eq h.ac]
    exact h.image.write hw hbegin

theorem controllerNext_pDone (h : s.ctrl = .pDone) :
    (controllerNext s).ctrl = .pAddr ∧ (controllerNext s).ac = s.ac + 1 := by
  by_cases hp : (s.ac.toNat + 1) % s.cfg.pageSize = 0 <;> simp [controllerNext, h, hp]

/-- The tick between two addresses counts on (R235). -/
theorem SweepAt.run_next (h : SweepAt c m₀ .pDone a n s) (ha : a < c.pEnd) :
    ∃ t, runFor 1 s = .next t ∧ SweepAt c m₀ .pAddr (a + 1) n t := by
  have hb := configBounds_of_valid h.valid
  have hcmd : controllerCommand s = .cmdNone 0 := by simp [controllerCommand, h.seq, h.ctrl]
  have hstep := h.step_accept h.seq (hcmd ▸ h.portDecoded_eq) (u := acceptState s) rfl
  obtain ⟨-, -, hseq, -, -, -, -, -, -, -, hwe, -, hrst, -⟩ := acceptState_frame s
  obtain ⟨hctrl, hac⟩ := controllerNext_pDone (s := { s with sinkValid := false }) h.ctrl
  have hdrive := controllerNext_drive { s with sinkValid := false }
  rw [← h.acceptState_eq] at hctrl hac hdrive
  refine ⟨_, runFor_one hstep, ⟨⟨h.of_step hstep hrst, stepKeepsInvariant _ _ h.inv hstep, hdrive.trans h.drive,
    hseq.trans h.seq, hctrl⟩, ?_, ?_⟩⟩
  · have hsize := hb.size_le
    have hend := hb.pEnd_le
    have hsum : (s.ac + 1).toNat = s.ac.toNat + 1 := by
      rw [BitVec.toNat_add_of_lt (by rw [h.ac]; simp; omega)]
      rfl
    exact (congrArg BitVec.toNat hac).trans (by rw [hsum, h.ac])
  · exact h.image.of_mem_eq (envMem_of_no_edge false hwe)

/-- The ticks of one programmed address (R242). -/
theorem SweepAt.run_address (h : SweepAt c m₀ .pAddr a a s) (hw : c.devWritable = true) (hbegin : c.pBegin ≤ a)
    (ha : a < c.pEnd) :
    ∃ t, runFor (programTicks c) s = .next t ∧ SweepAt c m₀ .pAddr (a + 1) (a + 1) t := by
  obtain ⟨u, hu, hdata, hsr⟩ := h.run_present ha
  obtain ⟨v, hv, hdone⟩ := hdata.run_write hw hbegin ha hsr
  obtain ⟨t, ht, hnext⟩ := hdone.run_next ha
  have hticks : programTicks c = 1 + 16 * (c.tSu + c.tHi) + (1 + (c.tSettle + c.tWe + c.tHold) + 1) := by
    unfold programTicks
    omega
  exact ⟨t, by rw [hticks, runFor_add hu, runFor_add hv, ht], hnext⟩

/-- The sweep after `k` addresses. -/
theorem SweepAt.run_addresses (h : SweepAt c m₀ .pAddr c.pBegin c.pBegin s) (hw : c.devWritable = true) {k : Nat}
    (hk : c.pBegin + k ≤ c.pEnd) :
    ∃ t, runFor (k * programTicks c) s = .next t ∧ SweepAt c m₀ .pAddr (c.pBegin + k) (c.pBegin + k) t := by
  induction k with
  | zero => exact ⟨s, by rw [Nat.zero_mul, runFor_zero], h⟩
  | succ k ih =>
    obtain ⟨u, hu, hat⟩ := ih (by omega)
    obtain ⟨t, ht, hnext⟩ := hat.run_address hw (by omega) (by omega)
    exact ⟨t, by rw [Nat.succ_mul, runFor_add hu, ht], hnext⟩

end Sys2Proof.Proofs
end

section
/-! PROOFS. After the Programming sweep (spec/20_memory.md R76): no later tick of the run lowers `WE_N`, so the device keeps
its image. -/

namespace Sys2Proof.Proofs

open Sys2Proof Sys2Proof.Machine

variable {c : Config} {s t : State}

/-! ### The controller's run goes on -/

theorem exec_next_control {i : Instr} {u : State} (h : exec i s = .next u) :
    u.ctrl = s.ctrl ∧ u.drive = s.drive ∧ u.rst = s.rst := by
  rcases exec_next h with rfl | ⟨b, rfl⟩ | ⟨a, rfl⟩ | rfl | rfl | rfl <;> exact ⟨rfl, rfl, rfl⟩

/-- The controller's commands are never refused (R231). -/
theorem exec_of_controller (i : Instr) (hd : s.drive = .controller) : ∃ u, exec i s = .next u := by
  cases i with
  | write ign b => exact ⟨_, withDirection_controller hd _ _ _⟩
  | read arg => exact ⟨_, withDirection_controller hd _ _ _⟩
  | _ => exact ⟨_, rfl⟩

/-- What the next tick of a run makes of the controller: its own update between two commands, nothing inside one (R231). -/
theorem Live.step_of_controller (h : Live c s) (hd : s.drive = .controller) :
    ∃ t, step s = .next t ∧ Live c t ∧ t.drive = .controller ∧
      t.ctrl = if s.seq = .idle then (controllerNext (openTick s)).ctrl else s.ctrl := by
  by_cases hq : s.seq = .idle
  · have hacc := acceptState_of_controller hd
    have hd' : (acceptState s).drive = .controller := by rw [hacc, controllerNext_drive, openTick_drive, hd]
    obtain ⟨u, hu⟩ := exec_of_controller (controllerCommand s) hd'
    obtain ⟨-, -, -, -, -, -, -, -, -, -, -, -, hrst, -⟩ := acceptState_frame s
    obtain ⟨huctrl, hudrive, hurst⟩ := exec_next_control hu
    have hstep := h.step_accept hq (by rw [portDecoded, hd]) hu
    exact ⟨_, hstep, h.of_step hstep (hurst.trans hrst), hudrive.trans hd', by rw [if_pos hq, ← hacc]; exact huctrl⟩
  · obtain ⟨-, -, hctrl, -, -, -, -, -, -, hrst, hdrive, -⟩ := seqStep_frame (readSample s) (openTick s)
    have hstep := h.step_busy hq
    exact ⟨_, hstep, h.of_step hstep hrst, hdrive.trans hd, by rw [if_neg hq]; exact hctrl⟩

/-! ### The device keeps its contents -/

/-- The controller's states after Programming: Verifying and Done (R230). -/
def AfterProgramming : Ctrl → Prop
  | .vAddr | .vRead | .vEmit | .done => True
  | .idle | .pAddr | .pData | .pDone => False

/-- A state of a run whose sweep is over: the controller is about to leave Programming, or has left it. -/
structure SweepOver (c : Config) (s : State) : Prop extends Live c s where
  inv : Inv s
  drive : s.drive = .controller
  phase : (s.seq = .idle ∧ s.ctrl = .pAddr ∧ s.cfg.pEnd ≤ s.ac.toNat) ∨ AfterProgramming s.ctrl

theorem controllerNext_afterProgramming
    (h : (s.ctrl = .pAddr ∧ s.cfg.pEnd ≤ s.ac.toNat) ∨ AfterProgramming s.ctrl) :
    AfterProgramming (controllerNext s).ctrl := by
  rcases h with ⟨hc, hend⟩ | h
  · simp [controllerNext, hc, Nat.not_lt.mpr hend, AfterProgramming]
  · cases hc : s.ctrl <;> rw [hc] at h
    case vAddr => by_cases hlt : s.ac.toNat < s.cfg.vEnd <;> simp [controllerNext, hc, hlt, AfterProgramming]
    case vRead | vEmit | done => simp [controllerNext, hc, AfterProgramming]
    all_goals exact h.elim

theorem SweepOver.next (h : SweepOver c s) : ∃ t, step s = .next t ∧ SweepOver c t := by
  obtain ⟨t, hstep, hlive, hdrive, hctrl⟩ := h.step_of_controller h.drive
  refine ⟨t, hstep, hlive, stepKeepsInvariant _ _ h.inv hstep, hdrive, .inr ?_⟩
  rw [hctrl]
  by_cases hq : s.seq = .idle
  · rw [if_pos hq]
    exact controllerNext_afterProgramming (s := openTick s) (h.phase.imp_left And.right)
  · rw [if_neg hq]
    exact h.phase.resolve_left fun hp => hq hp.1

/-- No write pulse is in progress: only Programming has one (R231). -/
theorem SweepOver.weN (h : SweepOver c s) : s.weN = true := by
  obtain ⟨-, -, -, ⟨hlow, -⟩, -⟩ := id h.inv
  obtain ⟨-, -, -, -, -, hctl⟩ := (inv_iff s).mp h.inv
  have hrow := hctl h.drive
  have hnot : s.seq ≠ .wrLow := by
    intro hq
    have hp := h.phase.resolve_left (by simp [hq])
    cases hc : s.ctrl <;> simp [hc, hq, AfterProgramming, ControllerRow] at hp hrow
  simpa using mt hlow.mp hnot

/-- The rest of the run leaves every byte of the device as it is. -/
theorem SweepOver.run (h : SweepOver c s) (n : Nat) : ∃ t, runFor n s = .next t ∧ t.mem = s.mem := by
  induction n generalizing s with
  | zero => exact ⟨s, rfl, rfl⟩
  | succ n ih =>
    obtain ⟨u, hstep, hu⟩ := h.next
    obtain ⟨t, hrun, hmem⟩ := ih hu
    obtain ⟨-, hkeep, -⟩ := deviceChangesOnlyAtEdges s u hstep
    exact ⟨t, (runFor_succ hstep).trans hrun, hmem.trans (hkeep (hu.weN.trans h.weN.symm))⟩

theorem SweepAt.over {m₀ : Memory} {n : Nat} (h : SweepAt c m₀ .pAddr c.pEnd n s) : SweepOver c s :=
  ⟨h.toLive, h.inv, h.drive, .inl ⟨h.seq, h.ctrl, by rw [h.cfg, h.ac]⟩⟩

/-- Settles O56: the turnaround, one address after the other, and a run that leaves the image as it is. -/
theorem deviceHoldsImage : Obligations.DeviceHoldsImage := by
  intro s h n hn
  obtain ⟨-, -, -, hvalid, hw, -⟩ := id h
  have hb := configBounds_of_valid hvalid
  have hrange : s.cfg.pBegin + (s.cfg.pEnd - s.cfg.pBegin) = s.cfg.pEnd := Nat.add_sub_cancel' hb.pBegin_le
  obtain ⟨u, hu, hstart⟩ := sweep_starts h
  obtain ⟨v, hv, hend⟩ := hstart.run_addresses hw hrange.le
  rw [hrange] at hend
  obtain ⟨m, rfl⟩ := Nat.exists_eq_add_of_le hn
  obtain ⟨t, ht, hmem⟩ := hend.over.run m
  have himage : HoldsImage s.cfg s.mem s.cfg.pEnd t.mem := hend.image.of_mem_eq hmem
  refine ⟨t, (runFor_add ((runFor_add hu).trans hv)).trans ht, fun a ha hlt => ?_, fun a _ hout => ?_⟩
  · rw [Nat.mod_eq_of_lt (hlt.trans_le hb.pEnd_le), himage a, imageByte, if_pos ⟨ha, hlt⟩]
  · rw [himage a, imageByte, if_neg (by omega)]

end Sys2Proof.Proofs
end

section
/-! PROOFS. The words of the three formats (spec/30_encoding.md R90, R91, R97): a concatenation gives its fields back, and a
word is the concatenation of the fields its class keeps, so each of the decoder and the encoder undoes the other. -/

namespace Sys2Proof.Proofs

open Sys2Proof Sys2Proof.Machine

/-! ### Fields of a concatenation (R13) -/

theorem field_append_low {n m lo k : Nat} (x : BitVec n) (y : BitVec m) (h : lo + k ≤ m) :
    field (x ++ y) lo k = field y lo k := by
  ext i hi
  simp [field, BitVec.getLsbD_append, show lo + i < m by omega]

theorem field_append_high {n m lo k : Nat} (x : BitVec n) (y : BitVec m) (h : m ≤ lo) :
    field (x ++ y) lo k = field x (lo - m) k := by
  ext i hi
  simp [field, BitVec.getLsbD_append, show ¬ lo + i < m by omega, show lo + i - m = lo - m + i by omega]

theorem field_self {n : Nat} (x : BitVec n) : field x 0 n = x := by simp [field]

theorem field_zero (n lo k : Nat) : field (0#n) lo k = 0#k := by simp [field]

/-! ### Decoding an encoded instruction -/

theorem decode_encode_of_da16 {i : Instr} (h : i.format = .da16) : decode (encode i) = .instr i := by
  cases i with
  | dispOct | dispDec0 | dispDec1 | dispDec2 | dispDec3 | dispGuard =>
    simp (disch := decide) only [decode, encode, decodeDisp, field_append_low, field_append_high, field_self,
      Nat.reduceSub, BitVec.reduceEq, reduceIte]
  | _ => cases h

theorem decode_encode_of_ca16 {i : Instr} (h : i.format = .ca16) : decode (encode i) = .instr i := by
  cases i with
  | csBank0 | csBank1 | csBank2 | csBank3 | csOor11 | csOor12 | csOor13 | csOor14 | csOor15 =>
    simp (disch := decide) only [decode, encode, decodeCs, field_append_low, field_append_high, field_self, field_zero,
      Nat.reduceSub, BitVec.reduceEq, reduceIte]
  | _ => cases h

theorem decode_encode_of_cmd19 {i : Instr} (h : i.format = .cmd19) : decode (encode i) = .instr i := by
  cases i with
  | cmdNone | present | write | read | turnRead | turnWrite =>
    simp (disch := decide) only [decode, encode, decodeCmd, field_append_low, field_append_high, field_self,
      Nat.reduceSub, BitVec.reduceEq, reduceIte]
  | _ => cases h

/-- Settles O8, format by format: the decoder's class bits and operands are fields of the encoder's concatenation. -/
theorem decodeOfEncode : Obligations.DecodeOfEncode := fun i =>
  match h : i.format with
  | .da16 => decode_encode_of_da16 h
  | .ca16 => decode_encode_of_ca16 h
  | .cmd19 => decode_encode_of_cmd19 h

/-- Settles O12: each word is the one its format assembles from the operands. -/
theorem decodedWords : Obligations.DecodedWords :=
  ⟨decodeOfEncode (.dispDec1 0x00A#12), decodeOfEncode (.dispDec0 0xFFB#12), decodeOfEncode (.csBank2 3#3 0x25#6),
    decodeOfEncode (.csBank3 7#3 63#6), decodeOfEncode (.present 0xA5C3#16), decodeOfEncode (.write 0xFF#8 0x19#8)⟩

/-! ### Encoding a decoded word -/

theorem codeWord_ext {w w' : CodeWord} (hformat : w.format = w'.format) (hbits : w.bits = w'.bits) : w = w' := by
  cases w <;> cases w' <;> cases hformat <;> exact congrArg _ (BitVec.eq_of_toNat_eq hbits)

/-- Settles O9: in each class of each format the bits tested and the operands kept are all the bits of the word. -/
theorem encodeOfDecode : Obligations.EncodeOfDecode := by
  intro w i h
  cases w with
  | da16 a | ca16 a | cmd19 a =>
    simp only [decode, decodeDisp, decodeCs, decodeCmd] at h
    split_ifs at h
    all_goals
      cases h
      refine codeWord_ext rfl ?_
      simp only [field_eq_iff, encode, CodeWord.bits, append_toNat, field_toNat, BitVec.toNat_ofNat] at *
      omega

end Sys2Proof.Proofs
end

section
/-! PROOFS. The decoder table (spec/30_encoding.md R102 to R104): a word matches the row of the instruction it decodes to, and
the rows of one format have no word in common, so it matches no other row of its format. -/

namespace Sys2Proof.Proofs

open Sys2Proof Sys2Proof.Machine

/-! ### The rows -/

/-- The rows of the table, each read off an instruction of it. -/
def tableRows : List Row :=
  [Instr.dispOct 0 0, .dispDec0 0, .dispDec1 0, .dispDec2 0, .dispDec3 0, .dispGuard 0,
    .csBank0 0 0, .csBank1 0 0, .csBank2 0 0, .csBank3 0 0, .csOor11 0, .csOor12 0, .csOor13 0, .csOor14 0, .csOor15 0,
    .cmdNone 0, .present 0, .write 0 0, .read 0, .turnRead 0, .turnWrite 0].map Instr.row

theorem row_mem_tableRows (i : Instr) : i.row ∈ tableRows := by
  cases i <;> simp [tableRows, Instr.row]

theorem row_format (i : Instr) : i.row.format = i.format := by cases i <;> rfl

/-- Two rows of one format whose patterns agree on the bits both masks fix are the same row. -/
theorem tableRows_disjoint :
    ∀ r ∈ tableRows, ∀ q ∈ tableRows, r.format = q.format → r.pattern &&& q.mask = q.pattern &&& r.mask → r = q := by
  decide

/-- No number matches two rows of one format. -/
theorem row_eq_of_match {i j : Instr} {n : Nat} (hf : i.format = j.format) (hi : n &&& i.row.mask = i.row.pattern)
    (hj : n &&& j.row.mask = j.row.pattern) : i.row = j.row := by
  refine tableRows_disjoint _ (row_mem_tableRows i) _ (row_mem_tableRows j) (by rw [row_format, row_format, hf]) ?_
  rw [← hi, ← hj, Nat.and_right_comm]

/-! ### The row of a decoded word -/

theorem encode_matches_row (i : Instr) : Laws.EncodingRow.Statement i := by
  cases i with
  | dispOct slot v => exact Laws.EncodingRow.dispOct slot v
  | dispDec0 v => exact Laws.EncodingRow.dispDec0 v
  | dispDec1 v => exact Laws.EncodingRow.dispDec1 v
  | dispDec2 v => exact Laws.EncodingRow.dispDec2 v
  | dispDec3 v => exact Laws.EncodingRow.dispDec3 v
  | dispGuard rest => exact Laws.EncodingRow.dispGuard rest
  | csBank0 c o => exact Laws.EncodingRow.csBank0 c o
  | csBank1 c o => exact Laws.EncodingRow.csBank1 c o
  | csBank2 c o => exact Laws.EncodingRow.csBank2 c o
  | csBank3 c o => exact Laws.EncodingRow.csBank3 c o
  | csOor11 rest => exact Laws.EncodingRow.csOor11 rest
  | csOor12 rest => exact Laws.EncodingRow.csOor12 rest
  | csOor13 rest => exact Laws.EncodingRow.csOor13 rest
  | csOor14 rest => exact Laws.EncodingRow.csOor14 rest
  | csOor15 rest => exact Laws.EncodingRow.csOor15 rest
  | cmdNone arg => exact Laws.EncodingRow.cmdNone arg
  | present a => exact Laws.EncodingRow.present a
  | write ign b => exact Laws.EncodingRow.write ign b
  | read arg => exact Laws.EncodingRow.read arg
  | turnRead arg => exact Laws.EncodingRow.turnRead arg
  | turnWrite arg => exact Laws.EncodingRow.turnWrite arg

theorem decode_format {w : CodeWord} {i : Instr} (h : decode w = .instr i) : w.format = i.format := by
  rw [← encodeOfDecode w i h, ← row_format i]
  exact (encode_matches_row i).1

/-- A word matches a row of its format exactly when that is the row of the instruction it decodes to. -/
theorem matches_row_iff {w : CodeWord} {i j : Instr} (hj : decode w = .instr j) (hf : w.format = i.format) :
    w.bits &&& i.row.mask = i.row.pattern ↔ j.row = i.row := by
  have hmatch : w.bits &&& j.row.mask = j.row.pattern := by
    rw [← encodeOfDecode w j hj]
    exact (encode_matches_row j).2
  constructor
  · exact row_eq_of_match ((decode_format hj).symm.trans hf) hmatch
  · intro h
    rwa [← h]

/-! ### Reserved command words -/

theorem six_le_code_of_reserved {w : CmdWord} {k : BitVec 3} (h : decodeCmd w = .reservedCommand k) :
    6 ≤ (field w 16 3).toNat := by
  unfold decodeCmd at h
  split_ifs at h
  bv_omega

/-- A command's row fixes the code, and no row has a reserved one (R104). -/
theorem command_row {i : Instr} (hi : i.format = .cmd19) : i.row.mask = 0x70000 ∧ i.row.pattern ≤ 0x50000 := by
  cases i with
  | cmdNone | present | write | read | turnRead | turnWrite => simp [Instr.row]
  | _ => cases hi

theorem code_eq_masked (w : CmdWord) : (field w 16 3).toNat = (w.toNat &&& 0x70000) / 2 ^ 16 := by
  rw [← Nat.shiftRight_eq_div_pow, Nat.shiftRight_and_distrib, field_toNat, Nat.shiftRight_eq_div_pow]
  exact (Nat.and_two_pow_sub_one_eq_mod _ 3).symm

theorem code_le_five_of_match {w : CmdWord} {i : Instr} (hi : i.format = .cmd19)
    (h : w.toNat &&& i.row.mask = i.row.pattern) : (field w 16 3).toNat ≤ 5 := by
  obtain ⟨hmask, hpattern⟩ := command_row hi
  rw [hmask] at h
  rw [code_eq_masked, h]
  omega

/-- Settles O10: an address has a class and so a row; a command word that matches a row has no reserved code. -/
theorem decoderFollowsTable : Obligations.DecoderFollowsTable := by
  refine ⟨fun a i hi => matches_row_iff (w := .da16 a) rfl hi.symm,
    fun a i hi => matches_row_iff (w := .ca16 a) rfl hi.symm, fun w i hi => ⟨fun h => ?_, ?_⟩⟩
  · cases hd : decodeCmd w with
    | instr j => exact ⟨j, rfl, (matches_row_iff (w := .cmd19 w) hd hi.symm).mp h⟩
    | reservedCommand k =>
      have hreserved := six_le_code_of_reserved hd
      have hcode := code_le_five_of_match hi h
      omega
  · rintro ⟨j, hd, hrow⟩
    exact (matches_row_iff (w := .cmd19 w) hd hi.symm).mpr hrow

end Sys2Proof.Proofs
end

section
/-! PROOFS. Ignored operand bits (spec/30_encoding.md R107): a step reads a test program's word only through what it decodes to,
and the meaning of a command reads only its own operand. -/

namespace Sys2Proof.Proofs

open Sys2Proof Sys2Proof.Machine

/-- What a tick of `s` answers to a decoded word accepted in the state `u` (R192, R220). -/
def answer (s u : State) : Decoded → Result
  | .instr i => mapNext (envStep false s) (exec i u)
  | .reservedCommand k => .refused (.reservedCommand k)

theorem step_of_idle {s : State} (hc : configValid s.cfg = true) (hr : rstNow s = false) (hq : s.seq = .idle) :
    step s = answer s (acceptState s) (portDecoded s) := by
  cases hd : portDecoded s <;> simp [step, answer, hc, hr, hq, hd]

/-- A tick that reads a test program's word: the environment does not see the program, so the word counts only as decoded. -/
theorem step_of_program {s : State} (w : CmdWord) (ws : List CmdWord) (hc : configValid s.cfg = true)
    (hr : rstNow s = false) (hq : s.seq = .idle) :
    step { s with drive := .program (w :: ws) } =
      answer s { openTick s with drive := .program ws } (decodeCmd w) :=
  step_of_idle (s := { s with drive := .program (w :: ws) }) hc hr hq

theorem step_of_invalid {s : State} (h : configValid s.cfg = false) : step s = .refused .configuration := if_pos h

/-- WRITE's meaning does not read `ARG[15:8]`, and those of NONE, READ and the turnarounds read no operand. -/
theorem answer_decodeCmd_congr (s u : State) {w w' : CmdWord} (hcode : field w 16 3 = field w' 16 3)
    (hpresent : field w 16 3 = 1#3 → field w 0 16 = field w' 0 16)
    (hwrite : field w 16 3 = 2#3 → field w 0 8 = field w' 0 8) :
    answer s u (decodeCmd w) = answer s u (decodeCmd w') := by
  rw [decodeCmd, decodeCmd, ← hcode]
  split_ifs with h0 h1 h2 h3 h4 h5
  · rfl
  · rw [hpresent h1]
  · rw [hwrite h2]
    rfl
  · rfl
  · rfl
  · rfl
  · rfl

/-- Settles O31: a valid configuration's step answers to the decoded word, any other is refused whatever the word. -/
theorem ignoredOperandBits : Obligations.IgnoredOperandBits := by
  intro s w w' ws hr hq hcode hpresent hwrite
  by_cases hc : configValid s.cfg = true
  · rw [step_of_program w ws hc hr hq, step_of_program w' ws hc hr hq]
    exact answer_decodeCmd_congr _ _ hcode hpresent hwrite
  · rw [step_of_invalid (by simpa using hc), step_of_invalid (by simpa using hc)]

end Sys2Proof.Proofs
end

section
/-! PROOFS. The display-segment encoder (spec/40_display_encoder.md): the byte of each class in the rules' arithmetic (R133 to
R137), `ENC_DISP` on the address of a decimal value (R90), and the properties R138 to R140. -/

namespace Sys2Proof.Proofs

open Sys2Proof Sys2Proof.Machine

variable (c : Config)

/-! ### The byte of each class -/

theorem byteOct_eq (slot : BitVec 2) (v : BitVec 12) :
    byteOct c slot v = c.seg[v.toNat / 2 ^ (3 * slot.toNat) % 8] := by
  simp only [byteOct, segAt, octDigit, BitVec.toNat_ushiftRight, Nat.shiftRight_eq_div_pow]
  rfl

theorem byteDec0_eq (v : BitVec 12) :
    byteDec0 c v = c.seg[v.toInt.natAbs % 10] ^^^ (if v.toInt < 0 then c.signMask else 0x00#8) := by
  simp only [byteDec0, segAt, decDigit, signMark, negFlag_eq, magnitude_eq_natAbs, decide_eq_true_eq, pow_zero,
    Nat.div_one]
  rfl

theorem byteDecHigh_of_lt {n : Nat} {v : BitVec 12} (h : v.toInt.natAbs < 10 ^ n) : byteDecHigh c n v = 0xFF#8 :=
  if_pos ((magnitude_eq_natAbs v).trans_lt h)

theorem byteDecHigh_of_le {n : Nat} {v : BitVec 12} (h : 10 ^ n ≤ v.toInt.natAbs) :
    byteDecHigh c n v = c.seg[v.toInt.natAbs / 10 ^ n % 10] := by
  rw [byteDecHigh, magnitude_eq_natAbs, if_neg h.not_gt]
  rfl

theorem byteDecHigh_eq (n : Nat) (v : BitVec 12) :
    byteDecHigh c n v = if v.toInt.natAbs < 10 ^ n then 0xFF#8 else c.seg[v.toInt.natAbs / 10 ^ n % 10] := by
  split_ifs with h
  · exact byteDecHigh_of_lt c h
  · exact byteDecHigh_of_le c (not_lt.mp h)

/-- Accepting a byte write is driving the byte and entering `S_WR_SETTLE`, and nothing else (R206). -/
theorem exec_of_acceptWrite {i : Instr} {s : State} {b b' : Byte} (h : exec i s = .next (acceptWrite b s)) (hb : b = b') :
    exec i s = .next { s with dOut := b', seq := .wrSettle, dc := s.cfg.tSettle } :=
  hb ▸ h

/-- Settles O17: each class is accepted as a write of its byte. -/
theorem displayClassResults : Obligations.DisplayClassResults :=
  ⟨fun slot v s => exec_of_acceptWrite rfl (byteOct_eq s.cfg slot v),
    fun v s => exec_of_acceptWrite rfl (byteDec0_eq s.cfg v),
    fun v s => exec_of_acceptWrite rfl (byteDecHigh_eq s.cfg 1 v),
    fun v s => exec_of_acceptWrite rfl (byteDecHigh_eq s.cfg 2 v),
    fun v s => exec_of_acceptWrite rfl (byteDecHigh_eq s.cfg 3 v),
    fun _ _ => exec_of_acceptWrite rfl rfl⟩

/-- Settles O19: each class of the decoder is one branch of `ENC_DISP`. -/
theorem displayClassesAreWholeFunction : Obligations.DisplayClassesAreWholeFunction :=
  exec_decodeDisp_eq_encDisp

/-! ### Octal mode -/

/-- The digit shown is the value's three bits at the slot (R99). -/
theorem octDigit_val (slot : BitVec 2) (v : BitVec 12) : (octDigit slot v).val = (field v (3 * slot.toNat) 3).toNat := by
  simp only [octDigit, field_toNat, BitVec.toNat_ushiftRight, Nat.shiftRight_eq_div_pow]
  rfl

/-- A field of a field is a field of the word. -/
theorem field_field {w lo n lo' k : Nat} (x : BitVec w) (h : lo' + k ≤ n) :
    field (field x lo n) lo' k = field x (lo + lo') k := by
  ext i hi
  simp [field, show lo' + i < n by omega, Nat.add_assoc]

/-- The digit of an octal address, read off the address itself. -/
theorem octDigit_field_val (slot : BitVec 2) (a : Addr) :
    (octDigit slot (field a 0 12)).val = (field a (3 * slot.toNat) 3).toNat := by
  have hbits : 3 * slot.toNat + 3 ≤ 12 := by omega
  rw [octDigit_val, field_field a hbits, Nat.zero_add]

/-- Settles O21: both addresses select the same digit of the table. -/
theorem octalIndependence : Obligations.OctalIndependence := by
  intro c a b ha hb hslot hbits
  have hdigit : octDigit (field a 12 2) (field a 0 12) = octDigit (field a 12 2) (field b 0 12) := by
    apply Fin.ext
    rw [octDigit_field_val, octDigit_field_val, hbits]
  rw [encDisp_of_octal c ha, encDisp_of_octal c hb, ← hslot, byteOct, byteOct, hdigit]

/-! ### Decimal mode -/

section DecimalAddress

variable (slot : BitVec 2) (v : BitVec 12)

theorem dispAddr_value (decimal : Bool) : field (dispAddr decimal slot v) 0 12 = v := by
  simp (disch := decide) only [dispAddr, field_append_low, field_self]

theorem dispAddr_slot (decimal : Bool) : field (dispAddr decimal slot v) 12 2 = slot := by
  simp (disch := decide) only [dispAddr, field_append_high, field_append_low, field_self, Nat.sub_self]

theorem dispAddr_decimal_toNat : (dispAddr true slot v).toNat = 0x4000 + slot.toNat * 2 ^ 12 + v.toNat := by
  simp only [dispAddr, append_toNat, BitVec.toNat_ofBool, Bool.toNat_true, BitVec.toNat_ofNat]
  omega

theorem dispAddr_decimal_not_guard : ¬ 0x8000 ≤ (dispAddr true slot v).toNat := by
  rw [dispAddr_decimal_toNat]
  omega

theorem dispAddr_decimal_not_octal : ¬ (dispAddr true slot v).toNat < 0x4000 := by
  rw [dispAddr_decimal_toNat]
  omega

theorem encDisp_dispAddr_slot0 : encDisp c (dispAddr true 0#2 v) = byteDec0 c v := by
  rw [encDisp_of_dec0 c (dispAddr_decimal_not_guard 0#2 v) (dispAddr_decimal_not_octal 0#2 v)
    (dispAddr_slot 0#2 v true), dispAddr_value]

variable {slot}

theorem encDisp_dispAddr_high (h : slot ≠ 0#2) :
    encDisp c (dispAddr true slot v) = byteDecHigh c slot.toNat v := by
  have hslot := dispAddr_slot slot v true
  rw [encDisp_of_decHigh c (dispAddr_decimal_not_guard slot v) (dispAddr_decimal_not_octal slot v) (hslot.trans_ne h), hslot,
    dispAddr_value]

end DecimalAddress

/-- With no digit pattern blank, a high slot is blank only by suppression. -/
theorem byteDecHigh_eq_blank_iff {n : Nat} {v : BitVec 12} (hseg : ∀ d : Fin 10, c.seg[d.val] ≠ 0xFF#8) :
    byteDecHigh c n v = 0xFF#8 ↔ v.toInt.natAbs < 10 ^ n := by
  refine ⟨fun hblank => ?_, byteDecHigh_of_lt c⟩
  by_contra hle
  rw [byteDecHigh_of_le c (not_lt.mp hle)] at hblank
  exact hseg ⟨_, Nat.mod_lt _ (by decide)⟩ hblank

/-- Settles O22: the decimal addresses run the classes of R135 and R136. -/
theorem leadingZeroSuppression : Obligations.LeadingZeroSuppression := by
  intro c slot v hslot
  rw [encDisp_dispAddr_high c v hslot, encDisp_dispAddr_slot0]
  exact ⟨byteDecHigh_of_lt c, byteDecHigh_of_le c, byteDecHigh_eq_blank_iff c, byteDec0_eq c v⟩

/-! ### Sign symmetry -/

theorem toInt_ofNat_pos {m : Nat} (h : m ≤ 2047) : (BitVec.ofNat 12 m).toInt = m := by
  rw [BitVec.toInt_ofNat', Int.bmod_def]
  omega

theorem toInt_ofNat_neg {m : Nat} (hpos : 1 ≤ m) (h : m ≤ 2047) : (BitVec.ofNat 12 (4096 - m)).toInt = -m := by
  rw [BitVec.toInt_ofNat', Int.bmod_def]
  omega

/-- The high slots show the magnitude alone (R136). -/
theorem byteDecHigh_congr {n : Nat} {v w : BitVec 12} (h : v.toInt.natAbs = w.toInt.natAbs) :
    byteDecHigh c n v = byteDecHigh c n w := by
  rw [byteDecHigh, byteDecHigh, magnitude_eq_natAbs, magnitude_eq_natAbs, h]

/-- At slot 0 a negative value differs from its magnitude by the sign mark alone (R135). -/
theorem byteDec0_xor_neg {v w : BitVec 12} (h : v.toInt.natAbs = w.toInt.natAbs) (hv : 0 ≤ v.toInt) (hw : w.toInt < 0) :
    byteDec0 c v ^^^ byteDec0 c w = c.signMask := by
  simp only [byteDec0_eq, h, if_pos hw, if_neg hv.not_gt, BitVec.xor_zero]
  rw [← BitVec.xor_assoc, BitVec.xor_self, BitVec.zero_xor]

/-- Settles O23: the words of `m` and of `4096 - m` are `m` and `-m`, of one magnitude. -/
theorem signSymmetry : Obligations.SignSymmetry := by
  intro c m hpos hle
  have hv := toInt_ofNat_pos hle
  have hw := toInt_ofNat_neg hpos hle
  have hmag : (BitVec.ofNat 12 m).toInt.natAbs = (BitVec.ofNat 12 (4096 - m)).toInt.natAbs := by
    rw [hv, hw, Int.natAbs_neg]
  refine ⟨fun slot hslot => ?_, ?_⟩
  · rw [encDisp_dispAddr_high c _ hslot, encDisp_dispAddr_high c _ hslot]
    exact byteDecHigh_congr c hmag
  · rw [encDisp_dispAddr_slot0, encDisp_dispAddr_slot0]
    exact byteDec0_xor_neg c hmag (by omega) (by omega)

end Sys2Proof.Proofs
end

section
/-! PROOFS. The control-store encoder (spec/41_controlstore_encoder.md): the bytes of a control word (R71, R173), `ENC_CS` on
the address of a bank's byte (R171), and what it gives of the image (R169, R176, R177) and of the reserved opcodes (R167). -/

namespace Sys2Proof.Proofs

open Sys2Proof Sys2Proof.Machine

/-! ### The bytes of a control word -/

theorem bankByte_eq_extract (w : CtlWord) (b : Nat) : bankByte w b = w.extractLsb' (8 * b) 8 :=
  BitVec.setWidth_ushiftRight_eq_extractLsb

theorem bankByte_zero (b : Nat) : bankByte 0#24 b = 0x00#8 := by simp [bankByte]

/-- A word is its three banks, each in its place (R95, R177). -/
theorem bankByte_recombine (w : CtlWord) :
    (bankByte w 0).setWidth 24 ||| ((bankByte w 1).setWidth 24 <<< 8) ||| ((bankByte w 2).setWidth 24 <<< 16) = w := by
  refine BitVec.eq_of_getLsbD_eq fun i hi => ?_
  by_cases h0 : i < 8
  · simp [bankByte_eq_extract, hi, h0, show i < 16 by omega]
  by_cases h1 : i < 16
  · simp [bankByte_eq_extract, hi, h0, h1, show i - 8 < 8 by omega, show 8 + (i - 8) = i by omega]
  · simp [bankByte_eq_extract, hi, h0, h1, show ¬ i - 8 < 8 by omega, show i - 16 < 8 by omega,
      show 16 + (i - 16) = i by omega]

/-- Settles O18: each class is accepted as a write of its bank's byte, or of none. -/
theorem controlStoreClassResults : Obligations.ControlStoreClassResults :=
  ⟨fun _ _ _ => exec_of_acceptWrite rfl (bankByte_eq_extract _ 0),
    fun _ _ _ => exec_of_acceptWrite rfl (bankByte_eq_extract _ 1),
    fun _ _ _ => exec_of_acceptWrite rfl (bankByte_eq_extract _ 2),
    fun _ _ _ => exec_of_acceptWrite rfl rfl,
    fun _ _ => exec_of_acceptWrite rfl rfl,
    fun _ _ => exec_of_acceptWrite rfl rfl,
    fun _ _ => exec_of_acceptWrite rfl rfl,
    fun _ _ => exec_of_acceptWrite rfl rfl,
    fun _ _ => exec_of_acceptWrite rfl rfl⟩

/-- Settles O20: each class of the decoder is one branch of `ENC_CS`. -/
theorem controlStoreClassesAreWholeFunction : Obligations.ControlStoreClassesAreWholeFunction :=
  exec_decodeCs_eq_encCs

/-! ### The address of a bank's byte -/

section BankAddress

variable (c : Config) (b : BitVec 2) (cyc : BitVec 3) (op : BitVec 6)

theorem csAddr_toNat : (csAddr b cyc op).toNat = b.toNat * 2 ^ 9 + cyc.toNat * 2 ^ 6 + op.toNat := by
  simp only [csAddr, append_toNat, BitVec.toNat_ofNat]
  omega

theorem csAddr_inside : (csAddr b cyc op).toNat < 0x800 := by
  rw [csAddr_toNat]
  omega

theorem csAddr_bank : field (csAddr b cyc op) 9 2 = b := by
  simp (disch := decide) only [csAddr, field_append_high, field_append_low, field_self, Nat.reduceSub]

theorem csAddr_cycle : field (csAddr b cyc op) 6 3 = cyc := by
  simp (disch := decide) only [csAddr, field_append_high, field_append_low, field_self, Nat.reduceSub]

theorem csAddr_opcode : field (csAddr b cyc op) 0 6 = op := by
  simp (disch := decide) only [csAddr, field_append_low, field_self]

/-- The next bank's byte is `0x200` addresses further (R171). -/
theorem csAddr_add_bank (k : BitVec 2) (h : b.toNat + k.toNat < 4) :
    csAddr b cyc op + BitVec.ofNat 16 (k.toNat * 0x200) = csAddr (b + k) cyc op := by
  apply BitVec.eq_of_toNat_eq
  simp only [BitVec.toNat_add, csAddr_toNat, BitVec.toNat_ofNat]
  omega

/-- A decoded class is the one whose word the address is. -/
theorem decodeCs_of_encode {i : Instr} {a : Addr} (h : encode i = .ca16 a) : decodeCs a = i := by
  have hdecode := decodeOfEncode i
  rw [h] at hdecode
  exact Decoded.instr.inj hdecode

/-- `ENC_CS` at the address of a bank's byte (R172 to R174). -/
theorem encCs_csAddr :
    encCs c (csAddr b cyc op) = if b = 3#2 then noSignal else bankByte (cwAt c op cyc) b.toNat := by
  have hin := csAddr_inside b cyc op
  have hbank := csAddr_bank b cyc op
  split_ifs with h
  · exact encCs_of_bank3 c hin (hbank.trans h)
  · rw [encCs_of_bank c hin (hbank.trans_ne h), hbank, csAddr_cycle, csAddr_opcode, byteBank]

variable {b} in
theorem encCs_csAddr_of_ne (h : b ≠ 3#2) : encCs c (csAddr b cyc op) = bankByte (cwAt c op cyc) b.toNat :=
  (encCs_csAddr c b cyc op).trans (if_neg h)

end BankAddress

/-- Settles O24: the address is the word of the bank's class. -/
theorem bankAddressComposition : Obligations.BankAddressComposition := by
  intro b cyc op
  constructor
  · rw [csAddr_toNat, Nat.or_assoc, ← Nat.shiftLeft_add_eq_or_of_lt op.isLt,
      ← Nat.shiftLeft_add_eq_or_of_lt (by omega), Nat.shiftLeft_eq, Nat.shiftLeft_eq, Nat.add_assoc]
  · split_ifs with h0 h1 h2
    · exact decodeCs_of_encode (by rw [h0]; rfl)
    · exact decodeCs_of_encode (by rw [h1]; rfl)
    · exact decodeCs_of_encode (by rw [h2]; rfl)
    · have h3 : b = 3#2 := by bv_omega
      exact decodeCs_of_encode (by rw [h3]; rfl)

/-! ### The image -/

/-- Settles O25: the byte at a bank's address is a byte of the control word, which the laws give. -/
theorem imageUnderTableLaws : Obligations.ImageUnderTableLaws := by
  intro c op
  refine ⟨fun hfetch b hb => ?_, fun hzero cyc b hcyc => ?_, fun hlen => ⟨fun cyc hcyc => ?_, fun hzero hne => ?_⟩⟩
  · obtain ⟨h0, h1⟩ := hfetch op
    rw [encCs_csAddr_of_ne c 0#3 op hb, encCs_csAddr_of_ne c 1#3 op hb, h0, h1]
    exact ⟨rfl, rfl⟩
  · rw [encCs_csAddr, hzero op cyc hcyc, bankByte_zero, noSignal, ite_self]
  · obtain ⟨hmin, -⟩ := hlen op
    have hdefined : ¬ lenAt c op ≤ cyc.toNat := by omega
    rw [cycleRole, if_neg hdefined]
    split_ifs <;> decide
  · obtain ⟨-, hmax⟩ := hlen op
    exact hzero op 7#3 (Nat.le_of_lt_succ (Nat.lt_of_le_of_ne hmax hne))

/-- Settles O26: the three addresses are those of the word's three banks. -/
theorem banksRecombine : Obligations.BanksRecombine := by
  rintro c cyc op a rfl
  have h1 : csAddr 0#2 cyc op + 0x200#16 = csAddr 1#2 cyc op := csAddr_add_bank 0#2 cyc op 1#2 (by decide)
  have h2 : csAddr 0#2 cyc op + 0x400#16 = csAddr 2#2 cyc op := csAddr_add_bank 0#2 cyc op 2#2 (by decide)
  rw [h1, h2, encCs_csAddr_of_ne c cyc op (by decide), encCs_csAddr_of_ne c cyc op (by decide),
    encCs_csAddr_of_ne c cyc op (by decide)]
  exact (bankByte_recombine (cwAt c op cyc)).symm

/-- Settles O27: the two opcodes have the same control words, so the same bytes of them. -/
theorem reservedOpcodesImageNop : Obligations.ReservedOpcodesImageNop := by
  rintro c op ⟨hmode, hwords⟩ hop
  obtain ⟨-, hword⟩ := hwords op hop
  refine ⟨hmode (modeOf op), fun b cyc => ?_⟩
  rw [encCs_csAddr, encCs_csAddr, hword cyc]

/-! ### The first fetch word -/

/-- The word of one signal asserts that signal and no other (R168). -/
theorem asserted_one_shiftLeft (p q : Fin 24) : asserted (1#24 <<< q.val) p = true ↔ p = q := by
  rw [asserted, ← BitVec.twoPow_eq, BitVec.getLsbD_twoPow]
  simp [q.isLt, Fin.ext_iff, eq_comm]

/-- Settles O28: the first fetch word is the union of the words of its two signals. -/
theorem fetchZeroSignals : Obligations.FetchZeroSignals := by
  intro c p
  have hunion : asserted (fetch0 c) p = (asserted (1#24 <<< c.sigPcOut.val) p || asserted (1#24 <<< c.sigMarIn.val) p) :=
    BitVec.getLsbD_or
  rw [hunion, Bool.or_eq_true, asserted_one_shiftLeft, asserted_one_shiftLeft]

end Sys2Proof.Proofs
end

section
/-! PROOFS. The command port (spec/42_sequencer.md R191, R192, R220): the instruction the controller runs is the one
its word encodes, and the step of a tick with `SEQ = S_IDLE` runs what the port carries. -/

namespace Sys2Proof.Proofs

open Sys2Proof Sys2Proof.Machine

/-! ### Reserved command words -/

theorem decodeCmd_eq_reserved_iff (w : CmdWord) (k : BitVec 3) :
    decodeCmd w = .reservedCommand k ↔ field w 16 3 = k ∧ (k = 6#3 ∨ k = 7#3) := by
  constructor
  · intro h
    have hcode := six_le_code_of_reserved h
    have hk : field w 16 3 = k := by
      unfold decodeCmd at h
      split_ifs at h
      exact Decoded.reservedCommand.inj h
    exact ⟨hk, by bv_omega⟩
  · rintro ⟨rfl, h | h⟩ <;> simp [decodeCmd, h]

/-! ### The controller's word -/

/-- The controller's word is a command's (R191, R241), and running that command is running the controller's
instruction: in `C_P_DATA` the class of `AC[15:0]` is accepted as the WRITE of its `ENC` byte (R234). -/
theorem controllerWord_encodes (s : State) :
    ∃ j, encode j = .cmd19 (controllerWord s) ∧
      ∀ a : State, a.drive = .controller → a.cfg = s.cfg → exec j a = exec (controllerCommand s) a := by
  by_cases hclass : s.seq = .idle ∧ s.ctrl = .pData
  · obtain ⟨hq, hc⟩ := hclass
    refine ⟨.write 0 (enc s.cfg (acAddr s)), by simp [encode, controllerWord, hq, hc], fun a hd hcfg => ?_⟩
    have hcmd : controllerCommand s = decodeAddr a.cfg.variant (acAddr s) := by simp [controllerCommand, hq, hc, hcfg]
    rw [hcmd, exec_decodeAddr_eq_enc, hcfg]
    exact withDirection_controller hd _ _ _
  · refine ⟨controllerCommand s, ?_, fun _ _ _ => rfl⟩
    by_cases hq : s.seq = .idle
    · have hc : s.ctrl ≠ .pData := fun hc => hclass ⟨hq, hc⟩
      unfold controllerCommand controllerWord
      rw [if_neg (not_not.mpr hq), if_neg (not_not.mpr hq)]
      cases h : s.ctrl with
      | pAddr | vAddr => dsimp only; split <;> rfl
      | pData => exact absurd h hc
      | idle | pDone | vRead | vEmit | done => rfl
    · simp [hq, encode]

theorem decodeCmd_of_encode {j : Instr} {w : CmdWord} (h : encode j = .cmd19 w) : decodeCmd w = .instr j := by
  have hdecode := decodeOfEncode j
  rwa [h] at hdecode

theorem controllerWord_not_reserved (s : State) {k : BitVec 3} (hk : k = 6#3 ∨ k = 7#3) :
    field (controllerWord s) 16 3 ≠ k := by
  intro hcode
  obtain ⟨j, hj, -⟩ := controllerWord_encodes s
  have hreserved := (decodeCmd_eq_reserved_iff (controllerWord s) k).mpr ⟨hcode, hk⟩
  rw [decodeCmd_of_encode hj] at hreserved
  cases hreserved

/-- Settles O11: the decoder rejects exactly the two codes, the controller's word always decodes, and a step answers
to a test program's word as it decodes. -/
theorem reservedCommandsRefused : Obligations.ReservedCommandsRefused := by
  refine ⟨decodeCmd_eq_reserved_iff,
    fun s => ⟨controllerWord_not_reserved s (.inl rfl), controllerWord_not_reserved s (.inr rfl)⟩,
    fun s w ws hc hr hq hd hcode => ?_⟩
  have hport : portDecoded s = .reservedCommand (field w 16 3) := by
    rw [portDecoded, hd]
    exact (decodeCmd_eq_reserved_iff w _).mpr ⟨rfl, hcode⟩
  rw [step_of_idle hc hr hq, hport]
  rfl

/-! ### What is on the port belongs to the build -/

theorem wellFormed_of_cmd19 {i : Instr} (h : i.format = .cmd19) (v : Variant) : i.wellFormed v = true := by
  simp [Instr.wellFormed, h]

theorem decodeDisp_format (a : Addr) : (decodeDisp a).format = .da16 := (decode_format (w := .da16 a) rfl).symm

theorem decodeCs_format (a : Addr) : (decodeCs a).format = .ca16 := (decode_format (w := .ca16 a) rfl).symm

theorem decodeAddr_wellFormed (v : Variant) (a : Addr) : (decodeAddr v a).wellFormed v = true := by
  cases v with
  | disp => simp [decodeAddr, Instr.wellFormed, decodeDisp_format]
  | cs => simp [decodeAddr, Instr.wellFormed, decodeCs_format]

theorem controllerCommand_wellFormed (s : State) : (controllerCommand s).wellFormed s.cfg.variant = true := by
  unfold controllerCommand
  split
  · rfl
  · cases h : s.ctrl with
    | pData => exact decodeAddr_wellFormed ..
    | pAddr | vAddr => dsimp only; split <;> rfl
    | idle | pDone | vRead | vEmit | done => rfl

theorem portDecoded_wellFormed {s : State} {i : Instr} (h : portDecoded s = .instr i) :
    i.wellFormed s.cfg.variant = true := by
  cases hd : s.drive with
  | controller =>
    rw [portDecoded, hd] at h
    cases h
    exact controllerCommand_wellFormed s
  | program ws => exact wellFormed_of_cmd19 (portDecoded_format_of_program hd h) _

theorem acceptState_drive_of_controller {s : State} (hd : s.drive = .controller) :
    (acceptState s).drive = .controller := by
  rw [acceptState_of_controller hd, controllerNext_drive, openTick_drive, hd]

/-- Settles O14: the controller's word decodes to the command it encodes; the port carries a command or a class of the
configured variant. -/
theorem controllerWordIsWhatRuns : Obligations.ControllerWordIsWhatRuns := by
  refine ⟨fun s hd => ?_, fun s i => portDecoded_wellFormed⟩
  obtain ⟨j, hj, hexec⟩ := controllerWord_encodes s
  exact ⟨j, decodeCmd_of_encode hj, hexec _ (acceptState_drive_of_controller hd) (acceptState_cfg s)⟩

/-- Settles O13: a tick with `SEQ = S_IDLE` answers to what the port carries, driver by driver. -/
theorem stepRunsDecodedInstruction : Obligations.StepRunsDecodedInstruction := by
  refine ⟨fun s i hc hr hq hi _ => ?_, fun s w ws hd => ⟨?_, ?_⟩, fun s hd hq hctrl => ⟨?_, ?_⟩⟩
  · rw [step_of_idle hc hr hq, hi]
    rfl
  · rw [portDecoded, hd]
    rfl
  · simp [acceptState, portAdvance, hd]
  · simp [portDecoded, controllerCommand, hd, hq, hctrl]
  · exact (acceptState_of_controller hd).trans (controllerNext_pData (s := openTick s) hctrl)

end Sys2Proof.Proofs
end

section
/-! PROOFS. Acceptance (spec/42_sequencer.md R194, R201, R206, R211, R215, R218): each command's action as the whole
next state, and what the acceptance of any instruction leaves unchanged. -/

namespace Sys2Proof.Proofs

open Sys2Proof Sys2Proof.Machine

/-- A command with a direction precondition runs where it holds, and always under the controller (R207, R212). -/
theorem withDirection_of_ok_or_controller {ok : Bool} {s : State} (h : ok = true ∨ s.drive = .controller) (r : Refusal)
    (k : State → State) : withDirection ok r s k = .next (k s) :=
  h.elim (fun hok => withDirection_ok hok r s k) fun hd => withDirection_controller hd ok r k

theorem exec_write_of_direction {s : State} (h : (s.dir = true ∧ s.oeN = true) ∨ s.drive = .controller)
    (ign b : BitVec 8) : exec (.write ign b) s = .next (acceptWrite b s) :=
  withDirection_of_ok_or_controller (h.imp_left fun ⟨hdir, hoe⟩ => by simp [hdir, hoe]) _ _

theorem exec_read_of_direction {s : State} (h : (s.dir = false ∧ s.oeN = false) ∨ s.drive = .controller)
    (arg : BitVec 16) : exec (.read arg) s = .next (enter .rdWait s.cfg.tAcc s) :=
  withDirection_of_ok_or_controller (h.imp_left fun ⟨hdir, hoe⟩ => by simp [hdir, hoe]) _ _

/-- Settles O29, command by command. -/
theorem commandAcceptance : Obligations.CommandAcceptance :=
  ⟨fun _ _ => rfl, fun _ _ => rfl, fun ign b _ h => exec_write_of_direction h ign b,
    fun arg _ h => exec_read_of_direction h arg, fun _ _ => rfl, fun _ _ => rfl⟩

/-- Settles O32: an acceptance action sets the sequencer's registers and outputs only. -/
theorem instructionFrame : Obligations.InstructionFrame := by
  intro i s t h
  rcases exec_next h with rfl | ⟨b, rfl⟩ | ⟨a, rfl⟩ | rfl | rfl | rfl <;> exact ⟨fun _ => rfl, by simp⟩

end Sys2Proof.Proofs
end

section
/-! PROOFS. Ticks with `SEQ` not `S_IDLE` (spec/42_sequencer.md R192, R193): the driver is not asked, a timed state
lasts its duration, and a wrong bus direction at its last tick gives a free value (R207, R212). -/

namespace Sys2Proof.Proofs

open Sys2Proof Sys2Proof.Machine

/-! ### The driver of a busy tick -/

theorem exitShHigh_with_drive (s : State) (d : Drive) :
    exitShHigh { s with drive := d } = { exitShHigh s with drive := d } := by
  by_cases hbi : 0 < s.bi.toNat
  · rw [exitShHigh, exitShHigh, if_pos hbi, if_pos hbi]
    rfl
  · rw [exitShHigh, exitShHigh, if_neg hbi, if_neg hbi]
    rfl

theorem seqExit_with_drive (x : Byte) {s : State} (hq : s.seq ≠ .idle) (d : Drive) :
    seqExit x { s with drive := d } = { seqExit x s with drive := d } := by
  unfold seqExit
  dsimp only
  cases h : s.seq with
  | idle => exact absurd h hq
  | shHigh =>
    dsimp only
    rw [← h]
    exact exitShHigh_with_drive s d
  | _ => rfl

/-- The sequencer's step neither reads nor changes what drives the port. -/
theorem seqStep_with_drive (x : Byte) {s : State} (hq : s.seq ≠ .idle) (d : Drive) :
    seqStep x { s with drive := d } = { seqStep x s with drive := d } := by
  rw [seqStep_eq_timed x hq, seqStep_eq_timed x (s := { s with drive := d }) hq, timed, timed, seqExit_with_drive x hq]
  split_ifs <;> rfl

theorem busyTick_with_drive {s : State} (hq : s.seq ≠ .idle) (d : Drive) :
    busyTick { s with drive := d } = { busyTick s with drive := d } :=
  congrArg (envStep false s) (seqStep_with_drive (readSample s) (s := openTick s) hq d)

/-- Settles O15: a busy tick is the sequencer's step alone, which keeps the controller's registers. -/
theorem busyTickIgnoresPort : Obligations.BusyTickIgnoresPort := by
  intro s hc hr hq
  obtain ⟨-, hac, hctrl, -, -, hvalid, -, -, -, -, hdrive, -, -, -, -, -, -, -, hsink⟩ :=
    seqStep_frame (readSample s) (openTick s)
  refine ⟨busyTick s, step_of_busy hc hr hq, hctrl, hac, hdrive, hsink, hvalid, fun d => ?_,
    controllerWord_busy hq, fun hd => ?_⟩
  · rw [← busyTick_with_drive hq]
    exact step_of_busy (s := { s with drive := d }) hc hr hq
  · rw [portDecoded, hd, controllerCommand_busy hq]

/-! ### A timed state's duration -/

/-- `SEQ` and `DC` after the exit action: the next timed state with its duration, or `S_IDLE` with `DC` at its last
value. -/
def exitEntry (s : State) : Seq × Nat :=
  match s.seq with
  | .shSetup => (.shHigh, s.cfg.tHi)
  | .shHigh => if 0 < s.bi.toNat then (.shSetup, s.cfg.tSu) else (.idle, 1)
  | .wrSettle => (.wrLow, s.cfg.tWe)
  | .wrLow => (.wrHold, s.cfg.tHold)
  | _ => (.idle, 1)

theorem exitTick_entry {s : State} (hq : s.seq ≠ .idle) (hdc : s.dc = 1) :
    ((exitTick s).seq, (exitTick s).dc) = exitEntry s := by
  simp only [exitTick, envStep_seq, envStep_dc, seqExit, openTick_seq, exitEntry]
  cases h : s.seq with
  | idle => exact absurd h hq
  | shSetup | wrSettle | wrLow => rfl
  | shHigh =>
    by_cases hbi : 0 < s.bi.toNat
    · simp [exitShHigh, hbi]
    · simp [exitShHigh, hbi, hdc]
  | wrHold | rdWait | turnR | turnW => exact congrArg (Prod.mk Seq.idle) hdc

theorem exitTick_rst (s : State) : (exitTick s).rst = s.rst.tail := by
  simp only [exitTick, envStep_rst, seqExit, openTick_seq]
  cases s.seq with
  | shHigh => simp only [exitShHigh]; split_ifs <;> rfl
  | _ => rfl

variable {c : Config} {s t : State}

/-- A timed state runs its ticks and enters what its exit action says (R193). -/
theorem runFor_timed (h : Live c s) (hq : s.seq ≠ .idle) (hpos : 1 ≤ s.dc) :
    ∃ t, runFor s.dc s = .next t ∧ Live c t ∧ (t.seq, t.dc) = exitEntry s := by
  obtain ⟨v, w, d, hrun⟩ := runFor_exit h hq rfl hpos
  have hlast := h.waiting (s.dc - 1) v w d
  have hdc : (waiting (s.dc - 1) v w d s).dc = 1 := Nat.sub_sub_self hpos
  exact ⟨_, hrun, hlast.of_step (hlast.step_exit hq hdc) (exitTick_rst _), exitTick_entry hq hdc⟩

/-- Settles O16: ticks that only count down, then the exit. -/
theorem timedStateLastsItsDuration : Obligations.TimedStateLastsItsDuration := by
  intro s hc hrst hq hpos
  have hl : Live s.cfg s := ⟨rfl, hc, hrst⟩
  refine ⟨fun k hk => ?_, ?_⟩
  · obtain ⟨v, w, d, hrun⟩ := runFor_waiting hl hq hk
    exact ⟨_, hrun, rfl, rfl, rfl, rfl, rfl, rfl, rfl, rfl⟩
  · obtain ⟨t, hrun, -, hentry⟩ := runFor_timed hl hq hpos
    exact ⟨t, hrun, hentry⟩

/-! ### A wrong bus direction -/

/-- The data lines with neither the block nor the device on them (R64). -/
theorem bus_of_undriven (hdir : s.dir = false) (hoe : s.oeN = true) : bus s = Config.freeByte s.draws := by
  simp [bus, busDriven, hdir, hoe]

theorem pulseByte_of_wrong_direction (r : Bool) (h : s.dir = false ∨ s.oeN = false) :
    ∃ n, pulseByte r s = Config.freeByte n := by
  unfold pulseByte
  split_ifs with hgood
  · exact ⟨_, rfl⟩
  · have hoe : s.oeN = true := by cases ho : s.oeN <;> simp [ho] at hgood ⊢
    have hdir : s.dir = false := h.resolve_right (by simp [hoe])
    exact ⟨_, bus_of_undriven hdir hoe⟩

theorem readSample_of_wrong_direction (h : s.dir = true ∨ s.oeN = true) : ∃ n, readSample s = Config.freeByte n := by
  rcases readSample_cases s with ⟨hdir, hbus⟩ | ⟨-, hfree⟩
  · exact ⟨_, hbus.trans (bus_of_undriven hdir (h.resolve_left (by simp [hdir])))⟩
  · exact ⟨_, hfree⟩

theorem step_exit_of_rstNow (hc : configValid s.cfg = true) (hr : rstNow s = false) (hq : s.seq ≠ .idle)
    (hdc : s.dc = 1) : step s = .next (exitTick s) := by
  obtain ⟨hmore, -⟩ | ⟨-, ht⟩ := busyTick_cases hq (by omega)
  · omega
  · rw [step_of_busy hc hr hq, ht]

theorem exitTick_weN_of_wrLow (hq : s.seq = .wrLow) : (exitTick s).weN = true := by
  simp [exitTick, seqExit, exitWrLow, hq]

theorem exitTick_rdata_of_rdWait (hq : s.seq = .rdWait) : (exitTick s).rdata = readSample s := by
  simp [exitTick, seqExit, exitRdWait, hq]

/-- Settles O30: the check refuses, the rise of `WE_N` stores and the sample takes what no driver fixes. -/
theorem wrongDirectionRefused : Obligations.WrongDirectionRefused := by
  refine ⟨fun s ws hd => ⟨fun ign b h => ?_, fun arg h => ?_⟩, fun s hc hr hq hwe hdc hw h => ?_,
    fun s hc hr hq hdc h => ?_⟩
  · have hbad : (s.dir && s.oeN) = false := by rcases h with h | h <;> simp [h]
    rw [exec, execWrite, hbad, withDirection_refused hd]
  · have hbad : (!s.dir && !s.oeN) = false := by rcases h with h | h <;> simp [h]
    rw [exec, execRead, hbad, withDirection_refused hd]
  · have hstep := step_exit_of_rstNow hc hr (by simp [hq]) hdc
    obtain ⟨-, -, hmem, -⟩ := step_next_environment hstep
    obtain ⟨n, hn⟩ := pulseByte_of_wrong_direction (rstNow s) h
    refine ⟨_, n, hstep, ?_⟩
    rw [hmem, envMem_of_rise _ ((weRise_iff ..).mpr ⟨hwe, exitTick_weN_of_wrLow hq⟩), memRead_memWrite_same hw, hn]
  · obtain ⟨n, hn⟩ := readSample_of_wrong_direction h
    exact ⟨_, n, step_exit_of_rstNow hc hr (by simp [hq]) hdc, (exitTick_rdata_of_rdWait hq).trans hn⟩

end Sys2Proof.Proofs
end

section
/-! PROOFS. The commands from acceptance to `S_IDLE` (spec/42_sequencer.md R206, R211, R215, R218, R221): the tick
of acceptance leaves the device alone but for its counters, and the timed states carry the command out. -/

namespace Sys2Proof.Proofs

open Sys2Proof Sys2Proof.Machine

variable {c : Config} {s t u : State}

/-! ### The tick of acceptance -/

theorem acceptState_serData (s : State) : (acceptState s).serData = s.serData := by
  obtain ⟨-, -, -, -, -, -, h, -⟩ := acceptState_frame s
  exact h

theorem acceptState_dOut (s : State) : (acceptState s).dOut = s.dOut := by
  obtain ⟨-, -, -, -, -, -, -, -, h, -⟩ := acceptState_frame s
  exact h

/-- The state after a tick that accepts an instruction: the device has seen no edge, and only its counters have
moved on. -/
structure AcceptedTick (s t : State) : Prop extends Live s.cfg t where
  rdata : t.rdata = s.rdata
  weN : t.weN = s.weN
  sr : t.sr = s.sr
  mem : t.mem = s.mem
  busy : t.busy = s.busy - 1
  accWait : t.accWait = s.accWait - 1

/-- No acceptance action raises `SER_CLK` (R201). -/
theorem exec_next_no_rise {i : Instr} (h : exec i s = .next u) : serRise s u = false := by
  rcases exec_next h with rfl | ⟨b, rfl⟩ | ⟨a, rfl⟩ | rfl | rfl | rfl <;> simp [serRise]

theorem accept_tick {i : Instr} (h : Accepts s i) (hx : exec i (acceptState s) = .next u) :
    step s = .next (envStep false s u) ∧ AcceptedTick s (envStep false s u) := by
  obtain ⟨hvalid, hrst, hq, hi⟩ := h
  obtain ⟨-, -, -, -, hrdata, hwe, -, -, -, -, hrst', -⟩ := instructionFrame i _ u hx
  obtain ⟨-, hrdata', -, -, -, -, -, -, -, -, -, -, hrst'', -⟩ := acceptState_frame s
  have hl : Live s.cfg s := ⟨rfl, hvalid, hrst⟩
  have hstep := hl.step_accept hq hi hx
  have hrise : serRise s u = false := by simpa [serRise] using exec_next_no_rise hx
  have hweN : u.weN = s.weN := hwe.trans (acceptState_weN s)
  exact ⟨hstep, hl.of_step hstep (hrst'.trans hrst''), hrdata.trans hrdata', hweN, envSr_of_no_rise hrise,
    envMem_of_no_edge false hweN, envBusy_of_no_rise (weRise_of_weN_eq hweN), envWait_of_no_rise hrise⟩

/-! ### WRITE -/

/-- The rise of `WE_N` leaves the device busy for `t_WC` (R63). -/
theorem PulseStart.run_device {a : Nat} (h : PulseStart c a s) :
    ∃ t, runFor c.tWe s = .next t ∧ t.latAddr = a ∧ t.busy = c.tWC := by
  obtain ⟨hpos, -⟩ := (configBounds_of_valid h.valid).tWe
  obtain ⟨v, w, d, hrun⟩ := runFor_exit h.toLive (by simp [h.seq]) h.dc hpos
  rw [exitTick_wrLow (h.waiting _ v w d).rst h.seq] at hrun
  refine ⟨_, hrun, ?_, ?_⟩
  · exact (envLat_of_no_fall (not_weFall_of_high rfl)).trans h.lat
  · refine (envBusy_of_rise ?_).trans (congrArg Config.tWC h.cfg)
    exact (weRise_iff ..).mpr ⟨h.weN, rfl⟩

/-- The hold time counts the write cycle down (R63). -/
theorem HoldStart.run_device (h : HoldStart c s) :
    ∃ t, runFor c.tHold s = .next t ∧ t.weN = true ∧ t.latAddr = s.latAddr ∧ t.busy = s.busy - c.tHold := by
  obtain ⟨hpos, -⟩ := (configBounds_of_valid h.valid).tHold
  obtain ⟨v, w, d, hrun⟩ := runFor_exit h.toLive (by simp [h.seq]) h.dc hpos
  rw [exitTick_wrHold (h.waiting _ v w d).rst h.seq] at hrun
  refine ⟨_, hrun, h.weN, envLat_of_no_fall (not_weFall_of_weN_eq rfl), ?_⟩
  refine (envBusy_of_no_rise (weRise_of_weN_eq rfl)).trans ?_
  show s.busy - (c.tHold - 1) - 1 = _
  omega

/-- A run has one end. -/
theorem runFor_unique {n : Nat} (h : runFor n s = .next t) (h' : runFor n s = .next u) : t = u :=
  Host.Outcome.next.inj (h.symm.trans h')

/-- The device after the timed part of WRITE (R63, R206). -/
theorem SettleStart.run_device (h : SettleStart c s) :
    ∃ t, runFor (c.tSettle + c.tWe + c.tHold) s = .next t ∧ t.weN = true ∧ t.latAddr = devAddr c s.sr ∧
      t.busy = c.tWC - c.tHold := by
  obtain ⟨p, hp, hpulse, -⟩ := h.run
  obtain ⟨q, hq, hhold, -⟩ := hpulse.run
  obtain ⟨q', hq', hlat, hbusy⟩ := hpulse.run_device
  obtain rfl := runFor_unique hq hq'
  obtain ⟨t, ht, hwe, hlat', hbusy'⟩ := hhold.run_device
  refine ⟨t, ?_, hwe, hlat'.trans hlat, hbusy'.trans (by rw [hbusy])⟩
  rw [Nat.add_assoc, runFor_add hp, runFor_add hq, ht]

/-- The tick that accepts WRITE with the lines driven and the device idle by the falling edge (R206). -/
theorem write_accepted {ign b : BitVec 8} (h : Accepts s (.write ign b)) (hdir : s.dir = true) (hoe : s.oeN = true)
    (hwe : s.weN = true) (hbusy : s.busy ≤ s.cfg.tSettle) :
    ∃ t, step s = .next t ∧ AcceptedTick s t ∧ SettleStart s.cfg t ∧ t.dOut = b ∧ t.serData = s.serData ∧
      t.serClk = s.serClk := by
  obtain ⟨hvalid, -⟩ := id h
  obtain ⟨hpos, -⟩ := (configBounds_of_valid hvalid).tSettle
  have hx := exec_write_of_direction (s := acceptState s) (.inl ⟨by simpa using hdir, by simpa using hoe⟩) ign b
  obtain ⟨hstep, ht⟩ := accept_tick h hx
  refine ⟨_, hstep, ht, ⟨⟨ht.toLive, ?_, ?_⟩, rfl, ?_, ht.weN.trans hwe, ?_⟩, rfl, ?_, ?_⟩
  · simpa using hdir
  · simpa using hoe
  · simp
  · rw [ht.busy]
    omega
  · exact acceptState_serData s
  · exact acceptState_serClk s

/-- Settles O34: acceptance, the settle time that latches the address, the pulse that stores, the hold time. -/
theorem writeStoresByte : Obligations.WriteStoresByte := by
  intro s ign b h hdir hoe hwe hbusy hw
  obtain ⟨s₁, hstep, hacc, hsettle, hbyte, hdata, hclk⟩ := write_accepted h hdir hoe hwe hbusy
  obtain ⟨t, ht, hidle, hmem, hview⟩ := hsettle.run_write
  obtain ⟨t', ht', hwe', hlat, hbusy'⟩ := hsettle.run_device
  obtain rfl := runFor_unique ht ht'
  have hrun : runFor (1 + s.cfg.tSettle + s.cfg.tWe + s.cfg.tHold) s = .next t := by
    rw [Nat.add_assoc, Nat.add_assoc, ← Nat.add_assoc s.cfg.tSettle, runFor_add (runFor_one hstep), ht]
  rw [hacc.mem, hacc.sr, hbyte] at hmem
  rw [hacc.sr] at hlat
  refine ⟨t, hrun, hidle, ?_, fun x hx => ?_, hlat, hbusy', (congrArg State.dOut hview).trans hbyte,
    (congrArg State.sr hview).trans hacc.sr, (congrArg State.dir hview).trans hsettle.dir, hwe',
    (congrArg State.oeN hview).trans hsettle.oeN, (congrArg State.serData hview).trans hdata,
    (congrArg State.serClk hview).trans hclk, (congrArg State.rdata hview).trans hacc.rdata⟩
  · rw [hmem, memRead_memWrite_same hw]
  · rw [hmem, memRead_memWrite_other _ _ _ hx]

/-! ### READ -/

/-- The access wait during ticks that count down: with no shift it counts down too (R64). -/
theorem runFor_waiting_accWait {n : Nat} (hl : Live c s) (hq : s.seq ≠ .idle) (hn : n < s.dc) :
    ∃ v d, runFor n s = .next (waiting n v (s.accWait - n) d s) := by
  induction n with
  | zero => exact ⟨s.sinkValid, s.draws, rfl⟩
  | succ n ih =>
    obtain ⟨v, d, hrun⟩ := ih (by omega)
    have hlive := hl.waiting n v (s.accWait - n) d
    have hstep := hlive.step_countDown hq (by simp only [waiting]; omega)
    have hwait : (countDown (waiting n v (s.accWait - n) d s)).accWait = s.accWait - n - 1 :=
      envWait_of_no_rise (serRise_of_serClk_eq rfl)
    rw [countDown_eq_waiting hlive.rst, hwait] at hstep
    exact ⟨false, _, (runFor_add hrun).trans (runFor_one hstep)⟩

/-- A READ samples the addressed byte of a device that drives the lines, idle and settled (R64, R66, R211). -/
theorem readSample_of_device (hdir : s.dir = false) (hoe : s.oeN = false) (hwe : s.weN = true) (hbusy : s.busy = 0)
    (hwait : s.accWait = 0) : readSample s = memRead s.mem (devAddr s.cfg s.sr) := by
  simp [readSample, bus, busDriven, hdir, hoe, hwe, hbusy, hwait]

theorem exitTick_rdWait (hrst : s.rst = []) (hq : s.seq = .rdWait) :
    exitTick s = envStep false s (toIdle { s with sinkValid := false, rdata := readSample s }) := by
  simp [exitTick, seqExit, exitRdWait, hq, openTick_of_rst_nil hrst]

/-- The first tick of a READ's wait, with a device that is idle and settled by the sample (R306, R307). -/
structure WaitStart (c : Config) (s : State) : Prop extends Live c s where
  seq : s.seq = .rdWait
  dc : s.dc = c.tAcc
  dir : s.dir = false
  oeN : s.oeN = false
  weN : s.weN = true
  busy : s.busy < c.tAcc
  accWait : s.accWait < c.tAcc

/-- What the timed ticks of a READ leave alone: everything but the sequencer's registers, `RDATA`, and the device's
counters. -/
def readView (s : State) : State :=
  { s with seq := .idle, dc := 0, rdata := 0, sinkValid := false, busy := 0, accWait := 0, draws := 0 }

theorem readView_envStep (r : Bool) {u : State} (hclk : serRise s u = false) (hsr : u.sr = s.sr) (hwe : u.weN = s.weN)
    (hmem : u.mem = s.mem) (hlat : u.latAddr = s.latAddr) (hbad : u.pulseBad = s.pulseBad) :
    readView (envStep r s u) = readView u := by
  rw [envStep_of_no_edge r hclk hsr hwe hmem hlat hbad]
  rfl

/-- The wait ends in the sample of the device's byte (R211). -/
theorem WaitStart.run (h : WaitStart c s) :
    ∃ t, runFor c.tAcc s = .next t ∧ t.seq = .idle ∧ t.rdata = memRead s.mem (devAddr c s.sr) ∧
      readView t = readView s := by
  have hb := h.busy
  have hw := h.accWait
  have hq : s.seq ≠ .idle := by simp [h.seq]
  have hlast : c.tAcc - 1 < s.dc := by rw [h.dc]; omega
  obtain ⟨v, d, hrun⟩ := runFor_waiting_accWait h.toLive hq hlast
  have hlive := h.waiting (c.tAcc - 1) v (s.accWait - (c.tAcc - 1)) d
  have hdc : s.dc - (c.tAcc - 1) = 1 := by rw [h.dc]; omega
  have hstep := hlive.step_exit hq hdc
  have hsample := readSample_of_device (s := waiting (c.tAcc - 1) v (s.accWait - (c.tAcc - 1)) d s) h.dir h.oeN h.weN
    (by simp only [waiting]; omega) (by simp only [waiting]; omega)
  rw [exitTick_rdWait hlive.rst h.seq] at hstep
  have hall := (runFor_add hrun).trans (runFor_one hstep)
  rw [Nat.sub_add_cancel (by omega)] at hall
  refine ⟨_, hall, rfl, hsample.trans (congrArg (fun c => memRead s.mem (devAddr c s.sr)) h.cfg), ?_⟩
  exact readView_envStep false (serRise_of_serClk_eq rfl) rfl rfl rfl rfl rfl

/-- The tick that accepts READ with the device driving, idle and settled by the sample (R211). -/
theorem read_accepted {arg : BitVec 16} (h : Accepts s (.read arg)) (hdir : s.dir = false) (hoe : s.oeN = false)
    (hwe : s.weN = true) (hbusy : s.busy ≤ s.cfg.tAcc) (hwait : s.accWait ≤ s.cfg.tAcc) :
    ∃ t, step s = .next t ∧ AcceptedTick s t ∧ WaitStart s.cfg t ∧ t.dOut = s.dOut ∧ t.serData = s.serData ∧
      t.serClk = s.serClk := by
  obtain ⟨hvalid, -⟩ := id h
  obtain ⟨hpos, -⟩ := (configBounds_of_valid hvalid).tAcc
  have hx := exec_read_of_direction (s := acceptState s) (.inl ⟨by simpa using hdir, by simpa using hoe⟩) arg
  obtain ⟨hstep, ht⟩ := accept_tick h hx
  refine ⟨_, hstep, ht, ⟨ht.toLive, rfl, ?_, ?_, ?_, ht.weN.trans hwe, ?_, ?_⟩, ?_, ?_, ?_⟩
  · simp
  · simpa using hdir
  · simpa using hoe
  · rw [ht.busy]
    omega
  · rw [ht.accWait]
    omega
  · exact acceptState_dOut s
  · exact acceptState_serData s
  · exact acceptState_serClk s

/-- Settles O36: acceptance, then a wait that ends in a sample of the device's byte. -/
theorem readSamplesByte : Obligations.ReadSamplesByte := by
  intro s arg h hdir hoe hwe hbusy hwait
  obtain ⟨s₁, hstep, hacc, hstart, hdOut, hdata, hclk⟩ := read_accepted h hdir hoe hwe hbusy hwait
  obtain ⟨t, ht, hidle, hrdata, hview⟩ := hstart.run
  rw [hacc.mem, hacc.sr] at hrdata
  refine ⟨t, (runFor_add (runFor_one hstep)).trans ht, hidle, hrdata, fun x => ?_,
    (congrArg State.sr hview).trans hacc.sr, (congrArg State.dOut hview).trans hdOut,
    (congrArg State.dir hview).trans (hstart.dir.trans hdir.symm), (congrArg State.weN hview).trans hacc.weN,
    (congrArg State.oeN hview).trans (hstart.oeN.trans hoe.symm), (congrArg State.serData hview).trans hdata,
    (congrArg State.serClk hview).trans hclk⟩
  exact congrArg (memRead · x) ((congrArg State.mem hview).trans hacc.mem)

/-! ### The turnarounds -/

theorem exitTick_turnR (hrst : s.rst = []) (hq : s.seq = .turnR) :
    exitTick s = envStep false s (toIdle { s with sinkValid := false, oeN := false }) := by
  simp [exitTick, seqExit, exitTurnR, hq, openTick_of_rst_nil hrst]

/-- The ticks between the two changes of a turnaround (R215, R218). -/
theorem runFor_turn (hl : Live c t) (hstep : step s = .next t) (hq : t.seq ≠ .idle) {k n : Nat} (hdc : t.dc = n)
    (hpos : 1 ≤ k) (hk : k ≤ n) :
    ∃ u, runFor k s = .next u ∧ u.dir = t.dir ∧ u.oeN = t.oeN ∧ u.seq = t.seq := by
  obtain ⟨v, w, d, hrun⟩ := runFor_waiting hl hq (n := k - 1) (by omega)
  have hall := (runFor_add (runFor_one hstep)).trans hrun
  rw [Nat.add_sub_cancel' hpos] at hall
  exact ⟨_, hall, rfl, rfl, rfl⟩

/-- What a whole turnaround leaves alone: `WE_N`, `D_OUT`, the address and the device's bytes. -/
def KeepsBus (s t : State) : Prop := t.weN = s.weN ∧ t.dOut = s.dOut ∧ t.sr = s.sr ∧ t.mem = s.mem

/-- The end of TURN_READ: the device's output is enabled (R215). -/
theorem run_turnR (hl : Live c s) (hq : s.seq = .turnR) (hdc : s.dc = c.tTurn) :
    ∃ t, runFor c.tTurn s = .next t ∧ t.seq = .idle ∧ t.dir = s.dir ∧ t.oeN = false ∧ KeepsBus s t := by
  obtain ⟨hpos, -⟩ := (configBounds_of_valid hl.valid).tTurn
  obtain ⟨v, w, d, hrun⟩ := runFor_exit hl (by simp [hq]) hdc hpos
  rw [exitTick_turnR (hl.waiting _ v w d).rst hq] at hrun
  exact ⟨_, hrun, rfl, rfl, rfl, rfl, rfl, envSr_of_no_rise (serRise_of_serClk_eq rfl), envMem_of_no_edge false rfl⟩

/-- The end of TURN_WRITE: the block drives the lines (R218). -/
theorem run_turnW (hl : Live c s) (hq : s.seq = .turnW) (hdc : s.dc = c.tTurn) :
    ∃ t, runFor c.tTurn s = .next t ∧ t.seq = .idle ∧ t.dir = true ∧ t.oeN = s.oeN ∧ KeepsBus s t := by
  obtain ⟨hpos, -⟩ := (configBounds_of_valid hl.valid).tTurn
  obtain ⟨v, w, d, hrun⟩ := runFor_exit hl (by simp [hq]) hdc hpos
  rw [exitTick_turnW (hl.waiting _ v w d).rst hq] at hrun
  exact ⟨_, hrun, rfl, rfl, rfl, rfl, rfl, envSr_of_no_rise (serRise_of_serClk_eq rfl), envMem_of_no_edge false rfl⟩

/-- The tick that accepts TURN_READ (R215). -/
theorem turnRead_accepted {arg : BitVec 16} (h : Accepts s (.turnRead arg)) :
    ∃ t, step s = .next t ∧ AcceptedTick s t ∧ t.seq = .turnR ∧ t.dc = s.cfg.tTurn ∧ t.dir = false ∧ t.oeN = s.oeN ∧
      t.dOut = s.dOut := by
  obtain ⟨hstep, ht⟩ := accept_tick h rfl
  exact ⟨_, hstep, ht, rfl, congrArg Config.tTurn (acceptState_cfg s), rfl, acceptState_oeN s, acceptState_dOut s⟩

/-- The tick that accepts TURN_WRITE (R218). -/
theorem turnWrite_accepted {arg : BitVec 16} (h : Accepts s (.turnWrite arg)) :
    ∃ t, step s = .next t ∧ AcceptedTick s t ∧ t.seq = .turnW ∧ t.dc = s.cfg.tTurn ∧ t.oeN = true ∧ t.dir = s.dir ∧
      t.dOut = s.dOut := by
  obtain ⟨hstep, ht⟩ := accept_tick h rfl
  exact ⟨_, hstep, ht, rfl, congrArg Config.tTurn (acceptState_cfg s), rfl, acceptState_dir s, acceptState_dOut s⟩

/-- Acceptance and the rest of a turnaround together. -/
theorem KeepsBus.of_accepted (h : KeepsBus t u) (hacc : AcceptedTick s t) (hdOut : t.dOut = s.dOut) :
    u.weN = s.weN ∧ u.dOut = s.dOut ∧ u.sr = s.sr ∧ ∀ x, memRead u.mem x = memRead s.mem x := by
  obtain ⟨hwe, hout, hsr, hmem⟩ := h
  exact ⟨hwe.trans hacc.weN, hout.trans hdOut, hsr.trans hacc.sr,
    fun x => congrArg (memRead · x) (hmem.trans hacc.mem)⟩

/-- Settles O37: one change at acceptance, `T_TURN` ticks that keep it, and the other change at their end. -/
theorem turnaroundOrder : Obligations.TurnaroundOrder := by
  refine ⟨fun s arg h => ?_, fun s arg h => ?_⟩
  · obtain ⟨s₁, hstep, hacc, hq, hdc, hdir, hoe, hdOut⟩ := turnRead_accepted h
    refine ⟨fun k hpos hk => ?_, ?_⟩
    · obtain ⟨u, hu, hdir', hoe', hq'⟩ := runFor_turn hacc.toLive hstep (by simp [hq]) hdc hpos hk
      exact ⟨u, hu, hdir'.trans hdir, hoe'.trans hoe, hq'.trans hq⟩
    · obtain ⟨t, ht, hidle, hdir', hoe', hkeep⟩ := run_turnR hacc.toLive hq hdc
      exact ⟨t, (runFor_add (runFor_one hstep)).trans ht, hidle, hdir'.trans hdir, hoe', hkeep.of_accepted hacc hdOut⟩
  · obtain ⟨s₁, hstep, hacc, hq, hdc, hoe, hdir, hdOut⟩ := turnWrite_accepted h
    refine ⟨fun k hpos hk => ?_, ?_⟩
    · obtain ⟨u, hu, hdir', hoe', hq'⟩ := runFor_turn hacc.toLive hstep (by simp [hq]) hdc hpos hk
      exact ⟨u, hu, hoe'.trans hoe, hdir'.trans hdir, hq'.trans hq⟩
    · obtain ⟨t, ht, hidle, hdir', hoe', hkeep⟩ := run_turnW hacc.toLive hq hdc
      exact ⟨t, (runFor_add (runFor_one hstep)).trans ht, hidle, hdir', hoe'.trans hoe, hkeep.of_accepted hacc hdOut⟩

end Sys2Proof.Proofs
end

section
/-! PROOFS. How long an instruction occupies the sequencer (spec/42_sequencer.md R221; 70_reset_and_hazards.md
R316): its tick of acceptance and the durations of its timed states, whatever the bus direction. -/

namespace Sys2Proof.Proofs

open Sys2Proof Sys2Proof.Machine

variable {c : Config} {s t : State}

/-- The sequencer is in timed states for the next `n` ticks and in `S_IDLE` after them. -/
def BusyFor (n : Nat) (s : State) : Prop :=
  (∀ k < n, ∃ t, runFor k s = .next t ∧ t.seq ≠ .idle) ∧ ∃ t, runFor n s = .next t ∧ t.seq = .idle

theorem busyFor_zero (hq : s.seq = .idle) : BusyFor 0 s :=
  ⟨fun k hk => absurd hk (Nat.not_lt_zero k), s, rfl, hq⟩

/-- A timed state adds its duration to what its exit leads to (R193). -/
theorem BusyFor.before {n : Nat} (h : BusyFor n t) (hl : Live c s) (hq : s.seq ≠ .idle)
    (hrun : runFor s.dc s = .next t) : BusyFor (s.dc + n) s := by
  obtain ⟨hbusy, u, hu, hidle⟩ := h
  refine ⟨fun k hk => ?_, u, (runFor_add hrun).trans hu, hidle⟩
  by_cases hlt : k < s.dc
  · obtain ⟨v, w, d, hwait⟩ := runFor_waiting hl hq hlt
    exact ⟨_, hwait, hq⟩
  · obtain ⟨w, hw, hq'⟩ := hbusy (k - s.dc) (by omega)
    have hall := (runFor_add hrun).trans hw
    rw [Nat.add_sub_cancel' (by omega)] at hall
    exact ⟨w, hall, hq'⟩

/-- The last timed state of a command: its exit goes to `S_IDLE`. -/
theorem busyFor_of_last (hl : Live c s) (hq : s.seq ≠ .idle) {n : Nat} (hdc : s.dc = n) (hpos : 1 ≤ n)
    (hexit : exitEntry s = (.idle, 1)) : BusyFor n s := by
  obtain rfl := hdc
  obtain ⟨t, hrun, -, hentry⟩ := runFor_timed hl hq hpos
  exact (busyFor_zero (congrArg Prod.fst (hentry.trans hexit))).before hl hq hrun

/-- A timed state whose exit enters the timed state `q` with duration `m`. -/
theorem busyFor_of_next (hl : Live c s) (hq : s.seq ≠ .idle) {n m k : Nat} {q : Seq} (hdc : s.dc = n) (hpos : 1 ≤ n)
    (hexit : exitEntry s = (q, m)) (hnext : ∀ t, Live c t → t.seq = q → t.dc = m → BusyFor k t) :
    BusyFor (n + k) s := by
  obtain rfl := hdc
  obtain ⟨t, hrun, hlive, hentry⟩ := runFor_timed hl hq hpos
  obtain ⟨hseq, hdc⟩ := Prod.mk.inj (hentry.trans hexit)
  exact (hnext t hlive hseq hdc).before hl hq hrun

/-! ### The timed part of each command -/

theorem wrHold_busyFor (hl : Live c s) (hq : s.seq = .wrHold) (hdc : s.dc = c.tHold) : BusyFor c.tHold s :=
  busyFor_of_last hl (by simp [hq]) hdc (configBounds_of_valid hl.valid).tHold.1 (by simp [exitEntry, hq])

theorem wrLow_busyFor (hl : Live c s) (hq : s.seq = .wrLow) (hdc : s.dc = c.tWe) : BusyFor (c.tWe + c.tHold) s :=
  busyFor_of_next hl (by simp [hq]) hdc (configBounds_of_valid hl.valid).tWe.1 (by simp only [exitEntry, hq, hl.cfg])
    fun _ => wrHold_busyFor

/-- The timed part of WRITE (R206). -/
theorem wrSettle_busyFor (hl : Live c s) (hq : s.seq = .wrSettle) (hdc : s.dc = c.tSettle) :
    BusyFor (c.tSettle + (c.tWe + c.tHold)) s :=
  busyFor_of_next hl (by simp [hq]) hdc (configBounds_of_valid hl.valid).tSettle.1
    (by simp only [exitEntry, hq, hl.cfg]) fun _ => wrLow_busyFor

/-- The timed part of READ (R211). -/
theorem rdWait_busyFor (hl : Live c s) (hq : s.seq = .rdWait) (hdc : s.dc = c.tAcc) : BusyFor c.tAcc s :=
  busyFor_of_last hl (by simp [hq]) hdc (configBounds_of_valid hl.valid).tAcc.1 (by simp [exitEntry, hq])

/-- The timed part of a turnaround (R215, R218). -/
theorem turn_busyFor (hl : Live c s) (hq : s.seq = .turnR ∨ s.seq = .turnW) (hdc : s.dc = c.tTurn) :
    BusyFor c.tTurn s := by
  obtain ⟨hpos, -⟩ := (configBounds_of_valid hl.valid).tTurn
  rcases hq with hq | hq <;> exact busyFor_of_last hl (by simp [hq]) hdc hpos (by simp [exitEntry, hq])

/-- The timed part of PRESENT: every tick is one of a bit's (R202). -/
theorem BitLow.busyFor {a : Addr} (h : BitLow c a 0 s) : BusyFor (16 * (c.tSu + c.tHi)) s := by
  obtain ⟨hpos, -⟩ := (configBounds_of_valid h.valid).tSu
  have hperiod : 0 < c.tSu + c.tHi := by omega
  constructor
  · intro k hk
    obtain ⟨u, hu, hbit, -⟩ := h.run_bits (k := k / (c.tSu + c.tHi)) (Nat.div_lt_of_lt_mul (by rwa [Nat.mul_comm]))
    obtain ⟨t, ht, hq, -⟩ := hbit.port (Nat.div_lt_of_lt_mul (by rwa [Nat.mul_comm])) (Nat.mod_lt k hperiod)
    have hall := (runFor_add hu).trans ht
    rw [Nat.mul_comm, Nat.div_add_mod] at hall
    exact ⟨t, hall, hq⟩
  · obtain ⟨t, ht, hdone, -⟩ := h.run_present
    exact ⟨t, ht, hdone.seq⟩

/-! ### From acceptance on -/

/-- The tick of acceptance comes before the timed part. -/
theorem BusyFor.of_accepted {n m : Nat} (h : BusyFor n t) (hstep : step s = .next t) (hm : m = 1 + n) :
    (∀ k, 0 < k → k < m → ∃ u, runFor k s = .next u ∧ u.seq ≠ .idle) ∧ ∃ u, runFor m s = .next u ∧ u.seq = .idle := by
  obtain rfl := hm
  obtain ⟨hbusy, u, hu, hidle⟩ := h
  have hone := runFor_one hstep
  refine ⟨fun k hpos hk => ?_, u, (runFor_add hone).trans hu, hidle⟩
  obtain ⟨w, hw, hq⟩ := hbusy (k - 1) (by omega)
  have hall := (runFor_add hone).trans hw
  rw [Nat.add_sub_cancel' hpos] at hall
  exact ⟨w, hall, hq⟩

/-- What a step made of the instruction it accepted. -/
theorem accepted_step {i : Instr} (h : Accepts s i) (hstep : step s = .next t) :
    ∃ u, exec i (acceptState s) = .next u ∧ t = envStep false s u ∧ Live s.cfg t := by
  obtain ⟨-, hrst, hq, hi⟩ := id h
  obtain ⟨-, ⟨hr, -⟩ | ⟨-, -, j, u, hj, hx, rfl⟩ | ⟨-, hbusy, -⟩⟩ := step_next hstep
  · simp [rstNow, hrst] at hr
  · rw [hi] at hj
    cases hj
    exact ⟨u, hx, rfl, (accept_tick h hx).2.toLive⟩
  · exact absurd hq hbusy

/-- An encoder class or a WRITE, accepted as a byte write (R206, R234). -/
theorem acceptWrite_busyFor {b : Byte} (hl : Live s.cfg (envStep false s (acceptWrite b (acceptState s)))) :
    BusyFor (s.cfg.tSettle + (s.cfg.tWe + s.cfg.tHold)) (envStep false s (acceptWrite b (acceptState s))) :=
  wrSettle_busyFor hl rfl (congrArg Config.tSettle (acceptState_cfg s))

/-- Settles O38, by the command's timed part; every encoder class has WRITE's. -/
theorem instructionTicks : Obligations.InstructionTicks := by
  intro s u i h hstep
  obtain ⟨v, hx, rfl, hl⟩ := accepted_step h hstep
  have hcfg := acceptState_cfg s
  cases i with
  | cmdNone _ =>
    cases hx
    obtain ⟨-, -, hq, -⟩ := h
    have hidle : (envStep false s (acceptState s)).seq = .idle := (acceptState_seq s).trans hq
    exact (busyFor_zero hidle).of_accepted hstep rfl
  | present a =>
    obtain ⟨t, hstep', hlow, -⟩ := present_accepted h
    exact hlow.busyFor.of_accepted hstep' rfl
  | read _ =>
    obtain ⟨rfl, -⟩ := withDirection_eq_next hx
    exact (rdWait_busyFor hl rfl (congrArg Config.tAcc hcfg)).of_accepted hstep rfl
  | turnRead _ =>
    cases hx
    exact (turn_busyFor hl (.inl rfl) (congrArg Config.tTurn hcfg)).of_accepted hstep rfl
  | turnWrite _ =>
    cases hx
    exact (turn_busyFor hl (.inr rfl) (congrArg Config.tTurn hcfg)).of_accepted hstep rfl
  | write _ b =>
    obtain ⟨rfl, -⟩ := withDirection_eq_next hx
    exact (acceptWrite_busyFor hl).of_accepted hstep (by simp only [Nat.add_assoc])
  | _ =>
    cases hx
    exact (acceptWrite_busyFor hl).of_accepted hstep (by simp only [Nat.add_assoc])

end Sys2Proof.Proofs
end

section
/-! PROOFS. The block never compares what it reads (spec/43_byte_fsm.md R244): every operation of a tick, seen through
`controlView`, is the same operation on `controlView`. -/

namespace Sys2Proof.Proofs

open Sys2Proof Sys2Proof.Machine

/-! ### The parts of a tick -/

theorem controlView_exitShHigh (s : State) : controlView (exitShHigh s) = controlView (exitShHigh (controlView s)) := by
  by_cases hbi : 0 < s.bi.toNat
  · rw [exitShHigh, exitShHigh, if_pos hbi, if_pos (show 0 < (controlView s).bi.toNat from hbi)]
    rfl
  · rw [exitShHigh, exitShHigh, if_neg hbi, if_neg (show ¬ 0 < (controlView s).bi.toNat from hbi)]
    rfl

/-- The exit actions read no data of the device but the sample, which goes to `RDATA`. -/
theorem controlView_seqExit (x y : Byte) (s : State) :
    controlView (seqExit x s) = controlView (seqExit y (controlView s)) := by
  have hq : (controlView s).seq = s.seq := rfl
  rw [seqExit, seqExit, hq]
  cases s.seq with
  | shHigh => exact controlView_exitShHigh s
  | _ => rfl

theorem controlView_seqStep (x y : Byte) {s : State} (hq : s.seq ≠ .idle) :
    controlView (seqStep x s) = controlView (seqStep y (controlView s)) := by
  rw [seqStep_eq_timed x hq, seqStep_eq_timed y (s := controlView s) hq, timed, timed]
  have hdc : (controlView s).dc = s.dc := rfl
  rw [hdc]
  split_ifs
  · rfl
  · exact controlView_seqExit x y s
  · rfl

/-- A BYTE event carries `RDATA` to `SINK_BYTE` and to the sink's list, and to no other register. -/
theorem controlView_controllerNext (s : State) :
    controlView (controllerNext s) = controlView (controllerNext (controlView s)) := by
  have hctrl : (controlView s).ctrl = s.ctrl := rfl
  have hac : (controlView s).ac = s.ac := rfl
  have hcfg : (controlView s).cfg = s.cfg := rfl
  rw [controllerNext, controllerNext, hctrl, hac, hcfg]
  cases s.ctrl with
  | pAddr | vAddr | pDone => dsimp only; split_ifs <;> rfl
  | idle | pData | vRead | vEmit | done => rfl

theorem controlView_acceptState (s : State) :
    controlView (acceptState s) = controlView (acceptState (controlView s)) := by
  have hdrive : (openTick (controlView s)).drive = (openTick s).drive := rfl
  rw [acceptState, acceptState, portAdvance, portAdvance, hdrive]
  cases (openTick s).drive with
  | controller => exact controlView_controllerNext (openTick s)
  | program ws => rfl

theorem portDecoded_controlView (s : State) : portDecoded (controlView s) = portDecoded s := rfl

theorem controlView_withDirection (ok : Bool) (r : Refusal) (s : State) {k : State → State}
    (hk : controlView (k s) = controlView (k (controlView s))) :
    mapNext controlView (withDirection ok r s k) = mapNext controlView (withDirection ok r (controlView s) k) := by
  have hdriven : programDriven (controlView s) = programDriven s := rfl
  rw [withDirection, withDirection, hdriven]
  split_ifs
  · rfl
  · exact congrArg Host.Outcome.next hk

/-- An instruction's acceptance reads no data of the device. -/
theorem controlView_exec (i : Instr) (s : State) :
    mapNext controlView (exec i s) = mapNext controlView (exec i (controlView s)) := by
  cases i with
  | write ign b => exact controlView_withDirection _ _ s rfl
  | read arg => exact controlView_withDirection _ _ s rfl
  | _ => rfl

/-! ### A tick and a run -/

/-- The answer of a step or a run, to an observer who never sees the device's data. -/
def viewOf (r : Result) : Result := mapNext controlView r

theorem viewOf_mapNext_envStep (b : Bool) (s : State) (r : Result) : viewOf (mapNext (envStep b s) r) = viewOf r := by
  cases r <;> rfl

theorem viewOf_exec_congr (i : Instr) {s s' : State} (h : controlView s = controlView s') :
    viewOf (exec i s) = viewOf (exec i s') := by
  rw [viewOf, controlView_exec, h, ← controlView_exec]
  rfl

/-- A step's answer, seen so, depends only on what is seen of the state. -/
theorem viewOf_step (s : State) : viewOf (step s) = viewOf (step (controlView s)) := by
  by_cases hc : configValid s.cfg = true
  case neg =>
    have hbad : configValid s.cfg = false := by simpa using hc
    rw [step_of_invalid hbad, step_of_invalid (s := controlView s) hbad]
  cases hr : rstNow s with
  | true =>
    rw [step_of_rst hc hr, step_of_rst (s := controlView s) hc hr]
    rfl
  | false =>
    by_cases hq : s.seq = .idle
    · rw [step_of_idle hc hr hq, step_of_idle (s := controlView s) hc hr hq, portDecoded_controlView]
      cases portDecoded s with
      | reservedCommand k => rfl
      | instr i =>
        simp only [answer, viewOf_mapNext_envStep]
        exact viewOf_exec_congr i (controlView_acceptState s)
    · rw [step_of_busy hc hr hq, step_of_busy (s := controlView s) hc hr hq]
      exact congrArg Host.Outcome.next (controlView_seqStep _ _ (s := openTick s) hq)

/-- Two answers that look alike are two next states that look alike, or one refusal. -/
theorem viewOf_eq_cases {r r' : Result} (h : viewOf r = viewOf r') :
    (∃ t t', r = .next t ∧ r' = .next t' ∧ controlView t = controlView t') ∨ ∃ k, r = .refused k ∧ r' = .refused k := by
  cases r with
  | fault k => cases k
  | next t =>
    cases r' with
    | next t' => exact .inl ⟨t, t', rfl, rfl, Host.Outcome.next.inj h⟩
    | fault k => cases k
    | refused k => cases h
  | refused k =>
    cases r' with
    | next t' => cases h
    | fault k' => cases k'
    | refused k' => cases h; exact .inr ⟨k, rfl, rfl⟩

theorem runFor_succ_refused {n : Nat} {s : State} {r : Refusal} (h : step s = .refused r) :
    runFor (n + 1) s = .refused r := by
  simp [runFor, Host.Core.run, Sys2Proof.core, h]

/-- Settles O54, by induction on the ticks: states that look alike have steps that look alike. -/
theorem deviceDataNeverSteers : Obligations.DeviceDataNeverSteers := by
  intro n
  induction n with
  | zero => exact fun s s' h => .inl ⟨s, s', rfl, rfl, h⟩
  | succ n ih =>
    intro s s' h
    have hstep : viewOf (step s) = viewOf (step s') := by rw [viewOf_step, h, ← viewOf_step]
    rcases viewOf_eq_cases hstep with ⟨t, t', ht, ht', hview⟩ | ⟨r, hr, hr'⟩
    · rw [runFor_succ ht, runFor_succ ht']
      exact ih t t' hview
    · exact .inr ⟨r, runFor_succ_refused hr, runFor_succ_refused hr'⟩

end Sys2Proof.Proofs
end

section
/-! PROOFS. The controller's tick (spec/43_byte_fsm.md R230 to R241): its command word, its own update, and what of
both the next state keeps. -/

namespace Sys2Proof.Proofs

open Sys2Proof Sys2Proof.Machine

variable {s t u : State}

/-- The controller's command is always accepted (R192, R231). -/
theorem step_of_controller_idle (hc : configValid s.cfg = true) (hr : rstNow s = false) (hq : s.seq = .idle)
    (hd : s.drive = .controller) :
    ∃ u, exec (controllerCommand s) (acceptState s) = .next u ∧ step s = .next (envStep false s u) := by
  obtain ⟨u, hu⟩ := exec_of_controller (controllerCommand s) (acceptState_drive_of_controller hd)
  refine ⟨u, hu, ?_⟩
  rw [step_of_idle hc hr hq, portDecoded, hd]
  simp only [answer, hu, mapNext_next]

/-! ### The transition table -/

theorem presentWord_eq (s : State) : (1#3 ++ acAddr s : CmdWord) = BitVec.ofNat 19 (0x10000 + s.ac.toNat % 65536) := by
  apply BitVec.eq_of_toNat_eq
  refine (append_toNat (1#3) (acAddr s)).trans ?_
  simp only [acAddr, field_toNat, BitVec.toNat_ofNat]
  omega

theorem writeWord_eq (b : Byte) : (2#3 ++ 0#8 ++ b : CmdWord) = BitVec.ofNat 19 (0x20000 + b.toNat) := by
  apply BitVec.eq_of_toNat_eq
  have hlt := b.isLt
  refine (append_toNat (2#3 ++ 0#8) b).trans ?_
  rw [append_toNat]
  simp only [BitVec.toNat_ofNat]
  omega

/-- Settles O49: the word of each row, and its update, which the accepted command leaves as it is. -/
theorem controllerTransitions : Obligations.ControllerTransitions := by
  intro s hc hr hq hd
  obtain ⟨u, hu, hstep⟩ := step_of_controller_idle hc hr hq hd
  obtain ⟨-, -, hac, hctrl, -, -, -, -, -, -, -, -, -, -, -, -, -, -, hsink⟩ := instructionFrame _ _ u hu
  refine ⟨_, hstep, ?_⟩
  rw [envStep_ctrl, envStep_ac, envStep_sink, hctrl, hac, hsink, acceptState_of_controller hd]
  cases h : s.ctrl with
  | pAddr | vAddr =>
    dsimp only
    split_ifs with hlt <;> simp [controllerWord, controllerNext, hq, h, hlt, presentWord_eq]
  | pDone =>
    dsimp only
    split_ifs with hp <;> simp [controllerWord, controllerNext, hq, h, hp]
  | pData => simp only [controllerWord, controllerNext, hq, h, ne_eq, not_true, if_false, writeWord_eq, acAddr_eq rfl,
      openTick_ctrl, openTick_ac, openTick_sink]
  | vEmit =>
    simp [controllerWord, controllerNext, hq, h, acAddr_eq (s := openTick s) rfl]
  | idle | vRead | done => simp [controllerWord, controllerNext, hq, h]

/-! ### `STATUS` -/

/-- `STATUS` stays or goes on to the next group (R230). -/
def StatusAdvances (x y : BitVec 2) : Prop :=
  y = x ∨ (x = 0b00#2 ∧ y = 0b01#2) ∨ (x = 0b01#2 ∧ y = 0b10#2) ∨ (x = 0b10#2 ∧ y = 0b11#2)

theorem statusAdvances_of_ctrl_eq (h : t.ctrl = s.ctrl) : StatusAdvances (statusOut s) (statusOut t) :=
  .inl (congrArg ctrlStatus h)

theorem statusAdvances_controllerNext (s : State) : StatusAdvances (statusOut s) (statusOut (controllerNext s)) := by
  cases h : s.ctrl with
  | pAddr | vAddr | pDone =>
    unfold controllerNext
    simp only [h]
    split_ifs <;> simp [StatusAdvances, statusOut, ctrlStatus, h]
  | idle | pData | vRead | vEmit | done => simp [StatusAdvances, statusOut, ctrlStatus, controllerNext, h]

theorem statusAdvances_acceptState (s : State) : StatusAdvances (statusOut s) (statusOut (acceptState s)) := by
  cases hd : s.drive with
  | controller =>
    rw [acceptState_of_controller hd]
    exact statusAdvances_controllerNext (openTick s)
  | program ws => exact statusAdvances_of_ctrl_eq (by simp [acceptState, portAdvance, hd])

/-- Settles O50: only the controller's update changes `CTRL`. -/
theorem statusOnlyAdvances : Obligations.StatusOnlyAdvances := by
  intro s t hr h
  obtain ⟨-, ⟨hr', -⟩ | ⟨-, -, i, u, -, hx, rfl⟩ | ⟨-, -, rfl⟩⟩ := step_next h
  · rw [hr] at hr'
    cases hr'
  · obtain ⟨hctrl, -⟩ := exec_next_control hx
    have hstatus : statusOut (envStep false s u) = statusOut (acceptState s) := congrArg ctrlStatus hctrl
    rw [hstatus]
    exact statusAdvances_acceptState s
  · obtain ⟨-, -, hctrl, -⟩ := seqStep_frame (readSample s) (openTick s)
    exact statusAdvances_of_ctrl_eq hctrl

/-! ### The event port -/

/-- No event is emitted between `s` and `t`. -/
def PortQuiet (s t : State) : Prop :=
  t.sinkValid = false ∧ t.sink = s.sink ∧ t.sinkKind = s.sinkKind ∧ t.sinkAddr = s.sinkAddr ∧ t.sinkByte = s.sinkByte

/-- The event `e` is emitted between `s` and `t`. -/
def PortCarries (e : Event) (s t : State) : Prop :=
  t.sinkValid = true ∧ t.sink = s.sink ++ [e] ∧ t.sinkKind = eventKind e ∧
    (t.sinkAddr, t.sinkByte) = match e with
      | .byte a v => (a, v)
      | _ => (s.sinkAddr, s.sinkByte)

theorem portQuiet_openTick (s : State) : PortQuiet s (openTick s) := ⟨rfl, rfl, rfl, rfl, rfl⟩

theorem portCarries_emit (e : Event) (s : State) : PortCarries e s (emit e s) := by
  cases e <;> exact ⟨rfl, rfl, rfl, rfl⟩

/-- The controller's update sets `CTRL` and `AC` and emits at most one event (R231). -/
theorem controllerNext_cases (s : State) :
    ∃ q a, controllerNext s = { s with ctrl := q, ac := a } ∨
      ∃ e, controllerNext s = emit e { s with ctrl := q, ac := a } := by
  unfold controllerNext
  cases s.ctrl with
  | pAddr =>
    dsimp only
    split_ifs
    · exact ⟨_, _, .inl rfl⟩
    · exact ⟨_, _, .inr ⟨_, rfl⟩⟩
  | pDone =>
    dsimp only
    split_ifs
    · exact ⟨_, _, .inr ⟨_, rfl⟩⟩
    · exact ⟨_, _, .inl rfl⟩
  | vAddr =>
    dsimp only
    split_ifs <;> exact ⟨_, _, .inl rfl⟩
  | idle | vEmit => exact ⟨_, _, .inr ⟨_, rfl⟩⟩
  | pData | vRead => exact ⟨_, _, .inl rfl⟩
  | done => exact ⟨s.ctrl, s.ac, .inl rfl⟩

theorem acceptState_port (s : State) : PortQuiet s (acceptState s) ∨ ∃ e, PortCarries e s (acceptState s) := by
  cases hd : s.drive with
  | program ws => exact .inl (by simp [acceptState, portAdvance, hd, PortQuiet])
  | controller =>
    rw [acceptState_of_controller hd]
    obtain ⟨q, a, h | ⟨e, h⟩⟩ := controllerNext_cases (openTick s) <;> rw [h]
    · exact .inl (portQuiet_openTick s)
    · exact .inr ⟨e, portCarries_emit e _⟩

/-- Settles O53: a reset clears the port, a busy tick emits nothing, and an accepted instruction leaves the port to the
driver. -/
theorem eventPortCarriesEvents : Obligations.EventPortCarriesEvents := by
  refine ⟨⟨rfl, rfl, rfl, fun _ _ => rfl⟩, fun s t h => ?_⟩
  obtain ⟨-, ⟨hr, rfl⟩ | ⟨hr, -, i, u, -, hx, rfl⟩ | ⟨hr, -, rfl⟩⟩ := step_next h
  · exact .inl ⟨rfl, rfl, fun hr' => by simp [hr] at hr'⟩
  · obtain ⟨-, -, -, -, -, -, hvalid, hkind, haddr, hbyte, -, -, -, -, -, -, -, -, hsink⟩ := instructionFrame i _ u hx
    rcases acceptState_port s with ⟨hv, hs, hk, ha, hb⟩ | ⟨e, hv, hs, hk, hab⟩
    · exact .inl ⟨hvalid.trans hv, hsink.trans hs, fun _ => ⟨hkind.trans hk, haddr.trans ha, hbyte.trans hb⟩⟩
    · exact .inr ⟨hr, e, hvalid.trans hv, hsink.trans hs, hkind.trans hk,
        (congrArg₂ Prod.mk haddr hbyte).trans hab⟩
  · obtain ⟨-, -, -, -, -, hvalid, hkind, haddr, hbyte, -, -, -, -, -, -, -, -, -, hsink⟩ :=
      seqStep_frame (readSample s) (openTick s)
    exact .inl ⟨hvalid, hsink, fun _ => ⟨hkind, haddr, hbyte⟩⟩

/-! ### The address counter -/

/-- Inside a sweep `AC` is below the device's size. -/
theorem ac_lt_of_inv (hs : Inv s) (hd : s.drive = .controller)
    (h : s.ctrl = .pData ∨ s.ctrl = .pDone ∨ s.ctrl = .vRead ∨ s.ctrl = .vEmit) : s.ac.toNat < 65536 := by
  obtain ⟨hvalid, -, -, -, -, -, -, -, hctl⟩ := hs
  obtain ⟨⟨-, hp, -, hv⟩, -⟩ := hctl hd
  have hb := configBounds_of_valid hvalid
  have hsize := hb.size_le
  rcases h with h | h | h | h
  · exact (hp (.inl h)).trans_le (hb.pEnd_le.trans hsize)
  · exact (hp (.inr h)).trans_le (hb.pEnd_le.trans hsize)
  · exact (hv (.inl h)).trans_le (hb.vEnd_le.trans hsize)
  · exact (hv (.inr h)).trans_le (hb.vEnd_le.trans hsize)

theorem ac_add_one_toNat (h : s.ac.toNat < 65536) : (s.ac + 1).toNat = s.ac.toNat + 1 := by
  bv_omega

theorem acAddr_toNat (h : s.ac.toNat < 65536) : (acAddr s).toNat = s.ac.toNat := by
  rw [acAddr_eq rfl, BitVec.toNat_ofNat, Nat.mod_eq_of_lt h]

/-- A tick of the controller that presents an address puts it in `AREG` (R201). -/
theorem step_of_present (hc : configValid s.cfg = true) (hr : rstNow s = false) (hq : s.seq = .idle)
    (hd : s.drive = .controller) (hcmd : controllerCommand s = .present (acAddr s)) :
    ∃ t, step s = .next t ∧ t.areg = acAddr s := by
  obtain ⟨u, hu, hstep⟩ := step_of_controller_idle hc hr hq hd
  rw [hcmd] at hu
  cases hu
  exact ⟨_, hstep, rfl⟩

/-- Settles O52, from the table's rows and the invariant's bounds on `AC`. -/
theorem addressCounterNeverWraps : Obligations.AddressCounterNeverWraps := by
  intro s hs hr hq hd
  obtain ⟨hvalid, -⟩ := id hs
  have hb := configBounds_of_valid hvalid
  constructor
  · intro hctrl
    have hlt := ac_lt_of_inv hs hd (hctrl.elim (fun h => .inr (.inl h)) fun h => .inr (.inr (.inr h)))
    obtain ⟨t, hstep, hrow⟩ := controllerTransitions s hvalid hr hq hd
    refine ⟨t, hstep, ?_⟩
    have hac : t.ac = s.ac + 1 := by
      rcases hctrl with h | h
      all_goals
        simp only [h, Prod.mk.injEq] at hrow
        obtain ⟨-, -, hac, -⟩ := hrow
        exact hac
    rw [hac, ac_add_one_toNat hlt]
  · intro hleft
    have hcmd : controllerCommand s = .present (acAddr s) := by
      rcases hleft with ⟨h, hlt⟩ | ⟨h, hlt⟩ <;> simp [controllerCommand, hq, h, hlt]
    have hlt : s.ac.toNat < 65536 := by
      have := hb.pEnd_le; have := hb.vEnd_le; have := hb.size_le
      omega
    obtain ⟨t, hstep, hareg⟩ := step_of_present hvalid hr hq hd hcmd
    exact ⟨t, hstep, hareg, by rw [hareg, acAddr_toNat hlt]⟩

/-! ### Done -/

/-- A tick in `C_DONE` (R239). -/
theorem step_done (hc : configValid s.cfg = true) (hr : rstNow s = false) (hq : s.seq = .idle)
    (hd : s.drive = .controller) (hctrl : s.ctrl = .done) : step s = .next (envStep false s (openTick s)) := by
  obtain ⟨u, hu, hstep⟩ := step_of_controller_idle hc hr hq hd
  have hcmd : controllerCommand s = .cmdNone 0 := by simp [controllerCommand, hq, hctrl]
  have hacc : acceptState s = openTick s := by simp [acceptState_of_controller hd, controllerNext, hctrl]
  rw [hcmd, hacc] at hu
  cases hu
  exact hstep

/-- Settles O51, by induction on the ticks: in each the controller's NONE changes nothing. -/
theorem doneIsQuiescent : Obligations.DoneIsQuiescent := by
  intro n
  induction n with
  | zero =>
    intro s _ _ _ _ hctrl
    exact ⟨s, rfl, rfl, by simp [statusOut, ctrlStatus, hctrl], rfl, rfl, rfl, rfl, fun _ => rfl⟩
  | succ n ih =>
    intro s hc hrst hq hd hctrl
    have hstep := step_done hc (by simp [rstNow, hrst]) hq hd hctrl
    obtain ⟨t, ht, hview, hstatus, hrdata, hbyte, hsr, hsink, hmem⟩ :=
      ih (envStep false s (openTick s)) hc (by simp [hrst]) hq hd hctrl
    have hsr' : envSr s (openTick s) = s.sr := envSr_of_no_rise (serRise_of_serClk_eq rfl)
    have hmem' : envMem false s (openTick s) = s.mem := envMem_of_no_edge false rfl
    refine ⟨t, (runFor_succ hstep).trans ht, ?_, hstatus, hrdata, hbyte, hsr.trans hsr', hsink, fun a => ?_⟩
    · rw [hview, openTick_of_rst_nil hrst]
      simp only [Nat.succ_ne_zero, if_false, envStep_sinkValid, ite_self]
      rfl
    · rw [hmem a, envStep_mem, hmem']

end Sys2Proof.Proofs
end

section
/-! PROOFS. The sink's text (spec/43_byte_fsm.md R247, R248, R250): hexadecimal digits, and the pages of a range counted
address by address. -/

namespace Sys2Proof.Proofs

open Sys2Proof Sys2Proof.Machine

theorem hexDigit_eq (n : BitVec 4) : hexDigit n = "0123456789abcdef".toList[n.toNat]! := by
  revert n
  decide

/-- Settles O60, event by event; the two nibbles of a byte are its quotient and remainder by 16. -/
theorem eventText : Obligations.EventText := by
  refine ⟨rfl, rfl, rfl, fun a v => ?_⟩
  have hhigh : (field v 4 4).toNat = v.toNat / 16 := by
    rw [field_toNat]
    omega
  have hlow : (field v 0 4).toNat = v.toNat % 16 := by
    rw [field_toNat]
    omega
  rw [render, hex2, hexDigit_eq, hexDigit_eq, hhigh, hlow]
  rfl

/-- The multiples of `p` among `1 .. n`, counted as the addresses below `n` that end a page. -/
theorem pageEnds_below (p n : Nat) : ((List.range n).filter fun a => (a + 1) % p = 0).length = n / p := by
  induction n with
  | zero => simp
  | succ n ih =>
    rw [List.range_succ, List.filter_append, List.length_append, ih, Nat.succ_div]
    by_cases hp : (n + 1) % p = 0
    · simp [hp, Nat.dvd_iff_mod_eq_zero]
    · simp [hp, Nat.dvd_iff_mod_eq_zero]

theorem nPages_of_begin_zero {c : Config} (h : c.pBegin = 0) : nPages c = c.pEnd / c.pageSize := by
  rw [nPages, h, Nat.sub_zero, ← List.range_eq_range', pageEnds_below]

/-- Settles O59: a range from 0 has one page end in every `PAGE_SIZE` addresses. -/
theorem pageCount : Obligations.PageCount := by
  refine ⟨fun _ => rfl, fun c h _ => nPages_of_begin_zero h, fun c h hsize => ⟨fun hend => ?_, fun hend => ?_⟩⟩
  all_goals rw [nPages_of_begin_zero h, hsize, hend]

end Sys2Proof.Proofs
end

section
/-! PROOFS. An encoder class from its acceptance to `S_IDLE` (spec/43_byte_fsm.md R234; 42_sequencer.md R205, R206). -/

namespace Sys2Proof.Proofs

open Sys2Proof Sys2Proof.Machine

variable {s t : State}

/-- The tick that accepts any byte write, a class's or WRITE's own, with the lines driven and the device idle by the
falling edge (R206, R234). -/
theorem byteWrite_accepted {i : Instr} {b : Byte} (h : Accepts s i)
    (hx : exec i (acceptState s) = .next (acceptWrite b (acceptState s))) (hdir : s.dir = true) (hoe : s.oeN = true)
    (hwe : s.weN = true) (hbusy : s.busy ≤ s.cfg.tSettle) :
    ∃ t, step s = .next t ∧ AcceptedTick s t ∧ SettleStart s.cfg t ∧ t.dOut = b ∧ t.ctrl = (acceptState s).ctrl ∧
      t.ac = (acceptState s).ac := by
  obtain ⟨hvalid, -⟩ := id h
  obtain ⟨hpos, -⟩ := (configBounds_of_valid hvalid).tSettle
  obtain ⟨hstep, ht⟩ := accept_tick h hx
  have hless : s.busy - 1 < s.cfg.tSettle := by omega
  exact ⟨_, hstep, ht, ⟨⟨ht.toLive, (acceptState_dir s).trans hdir, (acceptState_oeN s).trans hoe⟩, rfl,
    congrArg Config.tSettle (acceptState_cfg s), ht.weN.trans hwe, ht.busy ▸ hless⟩, rfl, rfl, rfl⟩

/-- Settles O35: the class on the port writes `ENC`'s byte, and its timed part stores it. -/
theorem encoderClassStoresByte : Obligations.EncoderClassStoresByte := by
  intro s hc hrst hq hd hctrl hdir hoe hwe hbusy hw
  have hport : portDecoded s = .instr (decodeAddr s.cfg.variant (acAddr s)) := by
    simp [portDecoded, controllerCommand, hd, hq, hctrl]
  have hx := exec_decodeAddr_eq_enc (acAddr s) (acceptState s)
  rw [acceptState_cfg] at hx
  have hacc : acceptState s = { openTick s with ctrl := .pDone } :=
    (acceptState_of_controller hd).trans (controllerNext_pData (s := openTick s) hctrl)
  obtain ⟨u, hstep, hu, hsettle, hbyte, hctrl', hac⟩ :=
    byteWrite_accepted ⟨hc, hrst, hq, hport⟩ hx hdir hoe hwe hbusy
  obtain ⟨t, ht, hidle, hmem, hview⟩ := hsettle.run_write
  have hrun : runFor (1 + s.cfg.tSettle + s.cfg.tWe + s.cfg.tHold) s = .next t := by
    rw [Nat.add_assoc, Nat.add_assoc, ← Nat.add_assoc s.cfg.tSettle, runFor_add (runFor_one hstep), ht]
  rw [hu.mem, hu.sr, hbyte] at hmem
  rw [hacc] at hctrl' hac
  refine ⟨t, hrun, hidle, (congrArg State.ctrl hview).trans hctrl', (congrArg State.ac hview).trans hac, ?_,
    fun x hx => ?_, (congrArg State.dOut hview).trans hbyte⟩
  · rw [hmem, memRead_memWrite_same hw]
  · rw [hmem, memRead_memWrite_other _ _ _ hx]

end Sys2Proof.Proofs
end

section
/-! PROOFS. The controller's registers over a whole command (spec/43_byte_fsm.md R231): the tick of acceptance is the
controller's own update, and no busy tick changes them. -/

namespace Sys2Proof.Proofs

open Sys2Proof Sys2Proof.Machine

variable {c : Config} {s t u v : State} {q : Ctrl} {n : Nat}

/-- What the controller updates: `CTRL`, `AC` and, through its events, the sink's list (R231). -/
def controlRegs (s : State) : Ctrl × BitVec 17 × List Event := (s.ctrl, s.ac, s.sink)

theorem controlRegs_busyTick (s : State) : controlRegs (busyTick s) = controlRegs s := by
  obtain ⟨-, hac, hctrl, -, -, -, -, -, -, -, -, -, -, -, -, -, -, -, hsink⟩ :=
    seqStep_frame (readSample s) (openTick s)
  exact congrArg₂ Prod.mk hctrl (congrArg₂ Prod.mk hac hsink)

/-- A run whose port the controller drives. -/
structure Controlled (c : Config) (s : State) : Prop extends Live c s where
  inv : Inv s
  drive : s.drive = .controller

theorem Sweeping.controlled (h : Sweeping c q s) : Controlled c s := ⟨h.toLive, h.inv, h.drive⟩

theorem Controlled.next (h : Controlled c s) : ∃ t, step s = .next t ∧ Controlled c t := by
  obtain ⟨t, hstep, hlive, hdrive, -⟩ := h.step_of_controller h.drive
  exact ⟨t, hstep, hlive, stepKeepsInvariant _ _ h.inv hstep, hdrive⟩

theorem Controlled.of_step (h : Controlled c s) (hstep : step s = .next t) : Controlled c t := by
  obtain ⟨u, hu, hnext⟩ := h.next
  rw [hstep] at hu
  cases hu
  exact hnext

/-- The accepted instruction leaves the controller's update as it is. -/
theorem Sweeping.controlRegs_step (h : Sweeping c q s) (hstep : step s = .next t) :
    controlRegs t = controlRegs (acceptState s) := by
  obtain ⟨u, hu, hstep'⟩ := step_of_controller_idle h.stateValid h.rstNow_eq h.seq h.drive
  obtain ⟨-, -, hac, hctrl, -, -, -, -, -, -, -, -, -, -, -, -, -, -, hsink⟩ := instructionFrame _ _ u hu
  rw [hstep] at hstep'
  cases hstep'
  exact congrArg₂ Prod.mk hctrl (congrArg₂ Prod.mk hac hsink)

/-- While the sequencer is busy the controller's registers stand still (R231). -/
theorem BusyFor.run (hb : BusyFor n s) (h : Controlled c s) :
    ∃ t, runFor n s = .next t ∧ t.seq = .idle ∧ Controlled c t ∧ controlRegs t = controlRegs s := by
  induction n generalizing s with
  | zero =>
    obtain ⟨-, t, ht, hidle⟩ := hb
    cases ht
    exact ⟨s, rfl, hidle, h, rfl⟩
  | succ n ih =>
    obtain ⟨hbusy, t, ht, hidle⟩ := hb
    obtain ⟨s', hs', hq⟩ := hbusy 0 (Nat.zero_lt_succ n)
    cases hs'
    have hstep := h.step_busy hq
    have hrest : BusyFor n (busyTick s) := by
      refine ⟨fun k hk => ?_, t, (runFor_succ hstep).symm.trans ht, hidle⟩
      obtain ⟨u, hu, hqu⟩ := hbusy (k + 1) (Nat.succ_lt_succ hk)
      exact ⟨u, (runFor_succ hstep).symm.trans hu, hqu⟩
    obtain ⟨v, hv, hidle', hcon, hregs⟩ := ih hrest (h.of_step hstep)
    exact ⟨v, (runFor_succ hstep).trans hv, hidle', hcon, hregs.trans (controlRegs_busyTick s)⟩

/-- A whole command of the controller: its tick of acceptance and `n` busy ticks. -/
theorem Sweeping.run_command (h : Sweeping c q s) (hstep : step s = .next t) (hb : BusyFor n t)
    (hrun : runFor (1 + n) s = .next v) {q' : Ctrl} {a : BitVec 17} {es : List Event}
    (hregs : controlRegs (acceptState s) = (q', a, es)) : Sweeping c q' v ∧ v.ac = a ∧ v.sink = es := by
  obtain ⟨w, hw, hidle, hcon, hkeep⟩ := hb.run (h.controlled.of_step hstep)
  obtain rfl := runFor_unique hrun ((runFor_add (runFor_one hstep)).trans hw)
  obtain ⟨hctrl, hrest⟩ := Prod.mk.inj (hkeep.trans ((h.controlRegs_step hstep).trans hregs))
  obtain ⟨hac, hsink⟩ := Prod.mk.inj hrest
  exact ⟨⟨hcon.toLive, hcon.inv, hcon.drive, hidle, hctrl⟩, hac, hsink⟩

theorem Sweeping.accepts (h : Sweeping c q s) {i : Instr} (hi : controllerCommand s = i) : Accepts s i :=
  ⟨h.stateValid, h.rst, h.seq, hi ▸ h.portDecoded_eq⟩

/-- The tick of a NONE leaves the device and `RDATA` as they are. -/
theorem Sweeping.none_tick (h : Sweeping c q s) (hi : controllerCommand s = .cmdNone 0) :
    ∃ t, step s = .next t ∧ BusyFor 0 t ∧ AcceptedTick s t := by
  obtain ⟨hstep, ht⟩ := accept_tick (h.accepts hi) rfl
  exact ⟨_, hstep, busyFor_zero ((acceptState_seq s).trans h.seq), ht⟩

/-! ### The controller's update, row by row of the table (R241) -/

theorem Sweeping.regs_idle (h : Sweeping c .idle s) :
    controlRegs (acceptState s) = (.pAddr, BitVec.ofNat 17 c.pBegin, s.sink ++ [.start]) := by
  simp [controlRegs, h.acceptState_eq, controllerNext, h.ctrl, h.cfg]

theorem Sweeping.regs_pAddr (h : Sweeping c .pAddr s) (hlt : s.ac.toNat < c.pEnd) :
    controlRegs (acceptState s) = (.pData, s.ac, s.sink) := by
  simp [controlRegs, h.acceptState_eq, controllerNext, h.ctrl, h.cfg, hlt]

theorem Sweeping.regs_pAddr_end (h : Sweeping c .pAddr s) (hend : c.pEnd ≤ s.ac.toNat) :
    controlRegs (acceptState s) = (.vAddr, BitVec.ofNat 17 c.vBegin, s.sink ++ [.finish]) := by
  simp [controlRegs, h.acceptState_eq, controllerNext, h.ctrl, h.cfg, Nat.not_lt.mpr hend]

theorem Sweeping.regs_pData (h : Sweeping c .pData s) : controlRegs (acceptState s) = (.pDone, s.ac, s.sink) := by
  simp [controlRegs, h.acceptState_eq, controllerNext, h.ctrl]

/-- The PAGE event at the end of a page (R235). -/
def pageMark (c : Config) (a : Nat) : List Event := if (a + 1) % c.pageSize = 0 then [.page] else []

theorem Sweeping.regs_pDone (h : Sweeping c .pDone s) :
    controlRegs (acceptState s) = (.pAddr, s.ac + 1, s.sink ++ pageMark c s.ac.toNat) := by
  by_cases hp : (s.ac.toNat + 1) % c.pageSize = 0 <;>
    simp [controlRegs, h.acceptState_eq, controllerNext, h.ctrl, h.cfg, pageMark, hp]

theorem Sweeping.regs_vAddr (h : Sweeping c .vAddr s) (hlt : s.ac.toNat < c.vEnd) :
    controlRegs (acceptState s) = (.vRead, s.ac, s.sink) := by
  simp [controlRegs, h.acceptState_eq, controllerNext, h.ctrl, h.cfg, hlt]

theorem Sweeping.regs_vAddr_end (h : Sweeping c .vAddr s) (hend : c.vEnd ≤ s.ac.toNat) :
    controlRegs (acceptState s) = (.done, s.ac, s.sink) := by
  simp [controlRegs, h.acceptState_eq, controllerNext, h.ctrl, h.cfg, Nat.not_lt.mpr hend]

theorem Sweeping.regs_vRead (h : Sweeping c .vRead s) : controlRegs (acceptState s) = (.vEmit, s.ac, s.sink) := by
  simp [controlRegs, h.acceptState_eq, controllerNext, h.ctrl]

theorem Sweeping.regs_vEmit (h : Sweeping c .vEmit s) :
    controlRegs (acceptState s) = (.vAddr, s.ac + 1, s.sink ++ [.byte (acAddr s) s.rdata]) := by
  simp [controlRegs, h.acceptState_eq, controllerNext, h.ctrl, acAddr]

end Sys2Proof.Proofs
end

section
/-! PROOFS. A whole run (spec/43_byte_fsm.md R232 to R243): the Programming sweep with its PAGE events, the turnaround
that emits FINISH, and the Verifying sweep, in which each address is presented, read and emitted. -/

namespace Sys2Proof.Proofs

open Sys2Proof Sys2Proof.Machine

variable {c : Config} {s t : State} {m₀ : Memory} {q : Ctrl} {a n k : Nat} {es : List Event}

/-- Between two commands of a run whose sink has received `es`. -/
structure RunAt (c : Config) (m₀ : Memory) (q : Ctrl) (a n : Nat) (es : List Event) (s : State) : Prop
    extends SweepAt c m₀ q a n s where
  sink : s.sink = es

theorem HoldsImage.congr {m m' : Memory} (h : HoldsImage c m₀ n m) (hm : ∀ x, memRead m' x = memRead m x) :
    HoldsImage c m₀ n m' := fun x => (hm x).trans (h x)

/-- A command that leaves every byte of the device as it is. -/
theorem RunAt.run_command (h : RunAt c m₀ q a n es s) {t v : State} (hstep : step s = .next t) (hb : BusyFor k t)
    (hrun : runFor (1 + k) s = .next v) (hmem : ∀ x, memRead v.mem x = memRead s.mem x) {q' : Ctrl} {a' : BitVec 17}
    {es' : List Event} (hregs : controlRegs (acceptState s) = (q', a', es')) : RunAt c m₀ q' a'.toNat n es' v := by
  obtain ⟨hs, hac, hsink⟩ := h.toSweeping.run_command hstep hb hrun hregs
  exact ⟨⟨hs, congrArg BitVec.toNat hac, h.image.congr hmem⟩, hsink⟩

theorem ofNat17_toNat (ha : a ≤ 65536) : (BitVec.ofNat 17 a).toNat = a := by
  rw [BitVec.toNat_ofNat, Nat.mod_eq_of_lt (by omega)]

/-! ### Programming -/

/-- A run starts its sweep with START at the sink (R232). -/
theorem run_starts (h : RunStart s) :
    ∃ t, runFor (1 + s.cfg.tTurn) s = .next t ∧ RunAt s.cfg s.mem .pAddr s.cfg.pBegin s.cfg.pBegin [.start] t := by
  obtain ⟨t, hrun, hat⟩ := sweep_starts h
  have hinv := inv_of_runStart h
  obtain ⟨⟨-, hctrl, -, hseq, -⟩, hrst, hdrive, hvalid, -, -, -, hsink⟩ := h
  have hs : Sweeping s.cfg .idle s := ⟨⟨rfl, hvalid, hrst⟩, hinv, hdrive, hseq, hctrl⟩
  obtain ⟨u, hstep, hlive, hturn, hdc, -⟩ := hs.idle_tick
  have hb := turn_busyFor hlive (.inr hturn) hdc
  obtain ⟨-, -, hlog⟩ := hs.run_command hstep hb hrun hs.regs_idle
  exact ⟨t, hrun, hat, by rw [hlog, hsink, List.nil_append]⟩

/-- PRESENT of the Programming sweep (R233). -/
theorem RunAt.program_present (h : RunAt c m₀ .pAddr a n es s) (ha : a < c.pEnd) :
    ∃ t, runFor (1 + 16 * (c.tSu + c.tHi)) s = .next t ∧ RunAt c m₀ .pData a n es t ∧ t.sr = BitVec.ofNat 16 a := by
  obtain ⟨t, hrun, hat, hsr⟩ := h.run_present ha
  obtain ⟨u, hstep, hlow, -⟩ := h.pAddr_tick (h.ac ▸ ha)
  obtain ⟨-, -, hsink⟩ := h.toSweeping.run_command hstep hlow.busyFor hrun (h.regs_pAddr (h.ac ▸ ha))
  exact ⟨t, hrun, ⟨hat, hsink.trans h.sink⟩, hsr⟩

/-- WRITE of the Programming sweep (R234). -/
theorem RunAt.program_write (h : RunAt c m₀ .pData a a es s) (hw : c.devWritable = true) (hbegin : c.pBegin ≤ a)
    (ha : a < c.pEnd) (hsr : s.sr = BitVec.ofNat 16 a) :
    ∃ t, runFor (1 + (c.tSettle + c.tWe + c.tHold)) s = .next t ∧ RunAt c m₀ .pDone a (a + 1) es t := by
  obtain ⟨t, hrun, hat⟩ := h.run_write hw hbegin ha hsr
  obtain ⟨u, hstep, hsettle, -⟩ := h.pData_tick
  have hb := wrSettle_busyFor hsettle.toLive hsettle.seq hsettle.dc
  rw [← Nat.add_assoc] at hb
  obtain ⟨-, -, hsink⟩ := h.toSweeping.run_command hstep hb hrun h.regs_pData
  exact ⟨t, hrun, hat, hsink.trans h.sink⟩

/-- The tick that counts on emits PAGE at the end of a page (R235). -/
theorem RunAt.program_next (h : RunAt c m₀ .pDone a n es s) (ha : a < c.pEnd) :
    ∃ t, runFor 1 s = .next t ∧ RunAt c m₀ .pAddr (a + 1) n (es ++ pageMark c a) t := by
  obtain ⟨t, hrun, hat⟩ := h.run_next ha
  obtain ⟨u, hstep, hb, -⟩ := h.none_tick (by simp [controllerCommand, h.seq, h.ctrl])
  obtain ⟨-, -, hsink⟩ := h.toSweeping.run_command hstep hb hrun h.regs_pDone
  exact ⟨t, hrun, hat, by rw [hsink, h.sink, h.ac]⟩

/-- The ticks of one programmed address (R242). -/
theorem RunAt.program_address (h : RunAt c m₀ .pAddr a a es s) (hw : c.devWritable = true) (hbegin : c.pBegin ≤ a)
    (ha : a < c.pEnd) :
    ∃ t, runFor (programTicks c) s = .next t ∧ RunAt c m₀ .pAddr (a + 1) (a + 1) (es ++ pageMark c a) t := by
  obtain ⟨u, hu, hdata, hsr⟩ := h.program_present ha
  obtain ⟨v, hv, hdone⟩ := hdata.program_write hw hbegin ha hsr
  obtain ⟨t, ht, hnext⟩ := hdone.program_next ha
  have hticks : programTicks c = 1 + 16 * (c.tSu + c.tHi) + (1 + (c.tSettle + c.tWe + c.tHold) + 1) := by
    unfold programTicks
    omega
  exact ⟨t, by rw [hticks, runFor_add hu, runFor_add hv, ht], hnext⟩

/-- The events of a run while its sweep has programmed `k` addresses. -/
def programEvents (c : Config) (k : Nat) : List Event := .start :: (List.range' c.pBegin k).flatMap (pageMark c)

theorem programEvents_succ (c : Config) (k : Nat) :
    programEvents c (k + 1) = programEvents c k ++ pageMark c (c.pBegin + k) := by
  simp [programEvents, List.range'_concat]

theorem RunAt.program_addresses (h : RunAt c m₀ .pAddr c.pBegin c.pBegin [.start] s) (hw : c.devWritable = true)
    (hk : c.pBegin + k ≤ c.pEnd) :
    ∃ t, runFor (k * programTicks c) s = .next t ∧
      RunAt c m₀ .pAddr (c.pBegin + k) (c.pBegin + k) (programEvents c k) t := by
  induction k with
  | zero => exact ⟨s, by rw [Nat.zero_mul, runFor_zero], h⟩
  | succ k ih =>
    obtain ⟨u, hu, hat⟩ := ih (by omega)
    obtain ⟨t, ht, hnext⟩ := hat.program_address hw (by omega) (by omega)
    exact ⟨t, by rw [Nat.succ_mul, runFor_add hu, ht], programEvents_succ c k ▸ hnext⟩

/-! ### The turnaround -/

/-- The end of Programming emits FINISH and hands over to Verifying (R233). -/
theorem RunAt.run_turn (h : RunAt c m₀ .pAddr c.pEnd n es s) :
    ∃ t, runFor (1 + c.tTurn) s = .next t ∧ RunAt c m₀ .vAddr c.vBegin n (es ++ [.finish]) t := by
  obtain rfl := h.cfg
  have hb := configBounds_of_valid h.valid
  have hend : s.cfg.pEnd ≤ s.ac.toNat := h.ac.ge
  have hacc := h.accepts (i := .turnRead 0) (by simp [controllerCommand, h.seq, h.ctrl, Nat.not_lt.mpr hend])
  obtain ⟨u, hstep, hu, hq, hdc, -⟩ := turnRead_accepted hacc
  obtain ⟨hread, -⟩ := turnaroundOrder
  obtain ⟨-, t, hrun, -, -, -, -, -, -, hmem⟩ := hread s 0 hacc
  have hnext := h.run_command hstep (turn_busyFor hu.toLive (.inl hq) hdc) hrun hmem (h.regs_pAddr_end hend)
  rw [ofNat17_toNat (hb.vBegin_le.trans (hb.vEnd_le.trans hb.size_le)), h.sink] at hnext
  exact ⟨t, hrun, hnext⟩

/-! ### Verifying -/

/-- PRESENT of the Verifying sweep (R236). -/
theorem RunAt.verify_present (h : RunAt c m₀ .vAddr a n es s) (ha : a < c.vEnd) :
    ∃ t, runFor (1 + 16 * (c.tSu + c.tHi)) s = .next t ∧ RunAt c m₀ .vRead a n es t ∧ t.sr = BitVec.ofNat 16 a := by
  obtain rfl := h.cfg
  have hlt : s.ac.toNat < s.cfg.vEnd := h.ac ▸ ha
  have hacc := h.accepts (i := .present (acAddr s)) (by simp [controllerCommand, h.seq, h.ctrl, hlt])
  obtain ⟨u, hstep, hlow, -⟩ := present_accepted hacc
  obtain ⟨-, t, hrun, -, hsr, -, -, -, -, -, -, -, -, -, -, hmem⟩ := presentShiftsAddress s _ hacc
  have hnext := h.run_command hstep hlow.busyFor hrun hmem (h.regs_vAddr hlt)
  rw [h.ac, h.sink] at hnext
  exact ⟨t, hrun, hnext, hsr.trans (acAddr_eq h.ac)⟩

/-- READ of the Verifying sweep: the device is idle and settled, and gives the image's byte (R237, R306, R307). -/
theorem RunAt.verify_read (h : RunAt c m₀ .vRead a n es s) (ha : a < c.vEnd) (hsr : s.sr = BitVec.ofNat 16 a) :
    ∃ t, runFor (1 + c.tAcc) s = .next t ∧ RunAt c m₀ .vEmit a n es t ∧ t.rdata = imageByte c m₀ n a := by
  obtain rfl := h.cfg
  have hb := configBounds_of_valid h.valid
  have hacc := h.accepts (i := .read 0) (by simp [controllerCommand, h.seq, h.ctrl])
  obtain ⟨-, -, ⟨-, hwait, -⟩, ⟨-, -, hidle⟩, hseq, hctl⟩ := (inv_iff s).mp h.inv
  have hrow := hctl h.drive
  rw [h.ctrl] at hrow
  obtain ⟨-, -, hdir, hoe⟩ := hrow
  rw [h.seq] at hseq
  obtain ⟨hwe, -⟩ := hseq
  have hbusy : s.busy ≤ s.cfg.tAcc := by rw [hidle hoe]; exact Nat.zero_le _
  have hsettled : s.accWait ≤ s.cfg.tAcc := by have := hb.access_le_acc; omega
  obtain ⟨u, hstep, -, hstart, -⟩ := read_accepted hacc hdir hoe hwe hbusy hsettled
  obtain ⟨t, hrun, -, hrdata, hmem, -⟩ := readSamplesByte s 0 hacc hdir hoe hwe hbusy hsettled
  have hnext := h.run_command hstep (rdWait_busyFor hstart.toLive hstart.seq hstart.dc) hrun hmem h.regs_vRead
  rw [h.ac, h.sink] at hnext
  refine ⟨t, hrun, hnext, ?_⟩
  rw [hrdata, hsr, devAddr_ofNat (ha.trans_le hb.vEnd_le) hb.size_le, h.image a]

/-- The tick that hands the byte to the sink and counts on (R238). -/
theorem RunAt.verify_emit (h : RunAt c m₀ .vEmit a n es s) :
    ∃ t, runFor 1 s = .next t ∧ RunAt c m₀ .vAddr (a + 1) n (es ++ [.byte (BitVec.ofNat 16 a) s.rdata]) t := by
  obtain ⟨t, hstep, hb, ht⟩ := h.none_tick (by simp [controllerCommand, h.seq, h.ctrl])
  have hnext := h.run_command hstep hb (runFor_one hstep) (fun x => by rw [ht.mem]) h.regs_vEmit
  rw [ac_add_one_toNat (ac_lt_of_inv h.inv h.drive (.inr (.inr (.inr h.ctrl)))), h.ac, h.sink, acAddr_eq h.ac] at hnext
  exact ⟨t, runFor_one hstep, hnext⟩

/-- The ticks of one verified address (R242). -/
theorem RunAt.verify_address (h : RunAt c m₀ .vAddr a n es s) (ha : a < c.vEnd) :
    ∃ t, runFor (verifyTicks c) s = .next t ∧
      RunAt c m₀ .vAddr (a + 1) n (es ++ [.byte (BitVec.ofNat 16 a) (imageByte c m₀ n a)]) t := by
  obtain ⟨u, hu, hread, hsr⟩ := h.verify_present ha
  obtain ⟨v, hv, hemit, hrdata⟩ := hread.verify_read ha hsr
  obtain ⟨t, ht, hnext⟩ := hemit.verify_emit
  have hticks : verifyTicks c = 1 + 16 * (c.tSu + c.tHi) + (1 + c.tAcc + 1) := by
    unfold verifyTicks
    omega
  exact ⟨t, by rw [hticks, runFor_add hu, runFor_add hv, ht], hrdata ▸ hnext⟩

/-- The bytes the first `k` addresses of the verify range read, with the image of a run over `m₀` in the device. -/
def verifyBytes (c : Config) (m₀ : Memory) (k : Nat) : List (Addr × Byte) :=
  (List.range' c.vBegin k).map fun a => (BitVec.ofNat 16 a, imageByte c m₀ c.pEnd a)

/-- The BYTE event of an address and its byte. -/
def byteEvent (e : Addr × Byte) : Event := .byte e.1 e.2

theorem verifyBytes_succ (c : Config) (m₀ : Memory) (k : Nat) :
    (verifyBytes c m₀ (k + 1)).map byteEvent = (verifyBytes c m₀ k).map byteEvent ++
      [.byte (BitVec.ofNat 16 (c.vBegin + k)) (imageByte c m₀ c.pEnd (c.vBegin + k))] := by
  simp [verifyBytes, byteEvent, List.range'_concat]

theorem RunAt.verify_addresses (h : RunAt c m₀ .vAddr c.vBegin c.pEnd es s) (hk : c.vBegin + k ≤ c.vEnd) :
    ∃ t, runFor (k * verifyTicks c) s = .next t ∧
      RunAt c m₀ .vAddr (c.vBegin + k) c.pEnd (es ++ (verifyBytes c m₀ k).map byteEvent) t := by
  induction k with
  | zero => exact ⟨s, by rw [Nat.zero_mul, runFor_zero], by simpa [verifyBytes] using h⟩
  | succ k ih =>
    obtain ⟨u, hu, hat⟩ := ih (by omega)
    obtain ⟨t, ht, hnext⟩ := hat.verify_address (by omega)
    refine ⟨t, by rw [Nat.succ_mul, runFor_add hu, ht], ?_⟩
    rw [verifyBytes_succ, ← List.append_assoc]
    exact hnext

/-! ### From start to end -/

/-- The events of a whole run over the device contents `m₀`. -/
def runEvents (c : Config) (m₀ : Memory) : List Event :=
  programEvents c (c.pEnd - c.pBegin) ++ [.finish] ++ (verifyBytes c m₀ (c.vEnd - c.vBegin)).map byteEvent

/-- The ticks of a run before its last one (R242). -/
def sweepTicks (c : Config) : Nat :=
  (1 + c.tTurn) + (c.pEnd - c.pBegin) * programTicks c + (1 + c.tTurn) + (c.vEnd - c.vBegin) * verifyTicks c

theorem runTicks_eq (c : Config) : runTicks c = sweepTicks c + 1 := rfl

/-- A run up to its last tick. -/
theorem run_sweeps (h : RunStart s) :
    ∃ t, runFor (sweepTicks s.cfg) s = .next t ∧
      RunAt s.cfg s.mem .vAddr s.cfg.vEnd s.cfg.pEnd (runEvents s.cfg s.mem) t := by
  obtain ⟨-, -, -, hvalid, hw, -⟩ := id h
  have hb := configBounds_of_valid hvalid
  have hp : s.cfg.pBegin + (s.cfg.pEnd - s.cfg.pBegin) = s.cfg.pEnd := Nat.add_sub_cancel' hb.pBegin_le
  have hv : s.cfg.vBegin + (s.cfg.vEnd - s.cfg.vBegin) = s.cfg.vEnd := Nat.add_sub_cancel' hb.vBegin_le
  obtain ⟨s₁, hrun₁, hstart⟩ := run_starts h
  obtain ⟨s₂, hrun₂, hprogrammed⟩ := hstart.program_addresses hw hp.le
  rw [hp] at hprogrammed
  obtain ⟨s₃, hrun₃, hturned⟩ := hprogrammed.run_turn
  obtain ⟨s₄, hrun₄, hverified⟩ := hturned.verify_addresses hv.le
  rw [hv] at hverified
  refine ⟨s₄, ?_, hverified⟩
  rw [sweepTicks, runFor_add ((runFor_add ((runFor_add hrun₁).trans hrun₂)).trans hrun₃), hrun₄]

/-- The last tick of a run goes to `C_DONE` (R236). -/
theorem RunAt.run_done (h : RunAt c m₀ .vAddr c.vEnd n es s) :
    ∃ t, runFor 1 s = .next t ∧ t.ctrl = .done ∧ t.sink = es := by
  have hend : c.vEnd ≤ s.ac.toNat := h.ac.ge
  obtain ⟨t, hstep, hb, -⟩ := h.none_tick (by simp [controllerCommand, h.seq, h.ctrl, h.cfg, Nat.not_lt.mpr hend])
  obtain ⟨hs, -, hsink⟩ := h.toSweeping.run_command hstep hb (runFor_one hstep) (h.regs_vAddr_end hend)
  exact ⟨t, runFor_one hstep, hs.ctrl, hsink.trans h.sink⟩

theorem run_ends (h : RunStart s) :
    ∃ t, runFor (runTicks s.cfg) s = .next t ∧ t.ctrl = .done ∧ t.sink = runEvents s.cfg s.mem := by
  obtain ⟨u, hu, hat⟩ := run_sweeps h
  obtain ⟨t, ht, hdone⟩ := hat.run_done
  exact ⟨t, by rw [runTicks_eq, runFor_add hu, ht], hdone⟩

/-! ### No earlier end -/

theorem Controlled.run (h : Controlled c s) (n : Nat) : ∃ t, runFor n s = .next t ∧ Controlled c t := by
  induction n generalizing s with
  | zero => exact ⟨s, rfl, h⟩
  | succ n ih =>
    obtain ⟨u, hstep, hu⟩ := h.next
    obtain ⟨t, ht, hlast⟩ := ih hu
    exact ⟨t, (runFor_succ hstep).trans ht, hlast⟩

/-- `C_DONE` is not left without a reset (R239). -/
theorem Controlled.stays_done (h : Controlled c s) (hdone : s.ctrl = .done) (hrun : runFor n s = .next t) :
    t.ctrl = .done := by
  obtain ⟨-, -, -, -, -, hctl⟩ := (inv_iff s).mp h.inv
  have hrow := hctl h.drive
  rw [hdone] at hrow
  obtain ⟨hq, -⟩ := hrow
  obtain ⟨u, hu, hview, -⟩ := doneIsQuiescent n s h.stateValid h.rst hq h.drive hdone
  obtain rfl := runFor_unique hrun hu
  exact (congrArg State.ctrl hview).trans hdone

/-- Before a tick outside `C_DONE` a run was never in it. -/
theorem Controlled.not_done_before (h : Controlled c s) (hrun : runFor n s = .next t) (ht : t.ctrl ≠ .done)
    (hk : k ≤ n) : ∃ u, runFor k s = .next u ∧ u.ctrl ≠ .done := by
  obtain ⟨u, hu, hcon⟩ := h.run k
  obtain ⟨m, rfl⟩ := Nat.exists_eq_add_of_le hk
  exact ⟨u, hu, fun hdone => ht (hcon.stays_done hdone ((runFor_add hu).symm.trans hrun))⟩

/-- Settles O55: the sweeps end outside `C_DONE`, and the next tick enters it. -/
theorem runLength : Obligations.RunLength := by
  intro s h n hn
  obtain ⟨-, hrst, hdrive, hvalid, -⟩ := id h
  have hcon : Controlled s.cfg s := ⟨⟨rfl, hvalid, hrst⟩, inv_of_runStart h, hdrive⟩
  obtain ⟨u, hu, hat⟩ := run_sweeps h
  obtain ⟨t, ht, hdone, -⟩ := run_ends h
  have hticks : n = runTicks s.cfg := hn
  refine ⟨fun k hk => ?_, t, by rw [hticks, ht], hdone⟩
  rw [hticks, runTicks_eq] at hk
  exact hcon.not_done_before hu (by simp [hat.ctrl]) (Nat.le_of_lt_succ hk)

end Sys2Proof.Proofs
end

section
/-! PROOFS. What the sink makes of a whole run's events (spec/43_byte_fsm.md R243, R249): the bytes of the Verifying
sweep, and the text. -/

namespace Sys2Proof.Proofs

open Sys2Proof Sys2Proof.Machine

variable {c : Config}

/-! ### The sink's list -/

theorem byteEvents_append (es es' : List Event) : byteEvents (es ++ es') = byteEvents es ++ byteEvents es' :=
  List.filterMap_append

theorem byteEvents_pages (c : Config) (l : List Nat) : byteEvents (l.flatMap (pageMark c)) = [] := by
  induction l with
  | nil => rfl
  | cons a l ih =>
    rw [List.flatMap_cons, byteEvents_append, ih, List.append_nil, pageMark]
    split_ifs <;> rfl

theorem byteEvents_map_byteEvent (l : List (Addr × Byte)) : byteEvents (l.map byteEvent) = l := by
  induction l with
  | nil => rfl
  | cons e l ih => exact congrArg (e :: ·) ih

theorem byteEvents_runEvents (c : Config) (m₀ : Memory) :
    byteEvents (runEvents c m₀) = verifyBytes c m₀ (c.vEnd - c.vBegin) := by
  have hprogram : byteEvents (programEvents c (c.pEnd - c.pBegin)) = [] := byteEvents_pages c _
  rw [runEvents, byteEvents_append, byteEvents_append, hprogram, byteEvents_map_byteEvent]
  rfl

/-- Settles O57, from the events of the whole run. -/
theorem roundTrip : Obligations.RoundTrip := by
  intro s h
  obtain ⟨t, ht, -, hsink⟩ := run_ends h
  exact ⟨t, ht, by rw [hsink, byteEvents_runEvents]; rfl⟩

/-! ### The text -/

theorem renderAll_append (es es' : List Event) : renderAll (es ++ es') = renderAll es ++ renderAll es' :=
  List.flatMap_append

/-- One dot for each address of the list that ends a page. -/
theorem renderAll_pages (c : Config) (l : List Nat) :
    renderAll (l.flatMap (pageMark c)) = List.replicate (l.filter fun a => (a + 1) % c.pageSize = 0).length '.' := by
  induction l with
  | nil => rfl
  | cons a l ih =>
    rw [List.flatMap_cons, renderAll_append, ih, pageMark]
    by_cases hp : (a + 1) % c.pageSize = 0
    · simp [hp, renderAll, render, List.replicate_succ]
    · simp [hp, renderAll]

theorem renderAll_programEvents (c : Config) :
    renderAll (programEvents c (c.pEnd - c.pBegin)) = render .start ++ List.replicate (nPages c) '.' :=
  congrArg (render .start ++ ·) (renderAll_pages c _)

theorem renderAll_map_byteEvent (l : List (Addr × Byte)) :
    renderAll (l.map byteEvent) = l.flatMap fun e => hex2 e.2 ++ [separator e.1.toNat] :=
  List.flatMap_map ..

theorem verifyBytes_addresses (m₀ : Memory) (hb : ConfigBounds c) :
    (verifyBytes c m₀ (c.vEnd - c.vBegin)).map (fun e => e.1.toNat) = List.range' c.vBegin (c.vEnd - c.vBegin) := by
  rw [verifyBytes, List.map_map]
  refine (List.map_congr_left fun a ha => ?_).trans (List.map_id _)
  rw [List.mem_range'_1] at ha
  have hsize := hb.size_le
  have hend := hb.vEnd_le
  exact Nat.mod_eq_of_lt (by omega)

/-- Settles O58: the text of the events of the whole run, part by part. -/
theorem sinkText : Obligations.SinkText := by
  intro s h
  obtain ⟨-, -, -, hvalid, -⟩ := id h
  obtain ⟨t, ht, -, hsink⟩ := run_ends h
  refine ⟨t, ht, ?_, ?_⟩
  · rw [hsink, byteEvents_runEvents, verifyBytes_addresses _ (configBounds_of_valid hvalid)]
  · rw [hsink, byteEvents_runEvents, runEvents, renderAll_append, renderAll_append, renderAll_programEvents,
      renderAll_map_byteEvent]
    rfl

end Sys2Proof.Proofs
end

section
/-! PROOFS. Reset and power-up (spec/70_reset_and_hazards.md R290 to R293): the block's registers, and what the device
makes of the edges a reset causes. -/

namespace Sys2Proof.Proofs

open Sys2Proof Sys2Proof.Machine

/-- Settles O1: the registers of the fixed state `State.reset` are compared one by one. -/
theorem powerUpEqualsReset : Obligations.PowerUpEqualsReset := by
  have hblock : BlockAtReset State.reset := by decide
  exact ⟨hblock, rfl, rfl⟩

theorem configValid_boot : configValid Config.boot = true := by decide

/-- Settles O4: power-up is the start of a run with an empty list of stored bytes. -/
theorem invariantAtReset : Obligations.InvariantAtReset := by
  obtain ⟨hblock, -⟩ := powerUpEqualsReset
  have hdevice : InvDevice State.reset := ⟨reset_mem_wf, fun x hx => absurd hx List.not_mem_nil, by decide⟩
  exact inv_of_runStart ⟨hblock, rfl, rfl, configValid_boot, rfl, hdevice, ⟨by decide, by decide, rfl⟩, rfl⟩

section ResetTick

variable (s : State)

theorem resetTick_block : BlockAtReset (resetTick s) := by
  simp [BlockAtReset, resetTick]

/-- A reset raises no clock: `SER_CLK` goes to 0 (R61, R290). -/
theorem resetTick_sr : (resetTick s).sr = s.sr :=
  envSr_of_no_rise (by simp [serRise])

/-- A reset latches no address: `WE_N` goes to 1 (R63, R290). -/
theorem resetTick_latAddr : (resetTick s).latAddr = s.latAddr :=
  envLat_of_no_fall (not_weFall_of_high rfl)

/-- A reset changes no byte but the one at the latched address (R293). -/
theorem memRead_resetTick_other {a : Nat} (h : a ≠ s.latAddr) : memRead (resetTick s).mem a = memRead s.mem a :=
  memRead_envMem_other true s _ h (by rwa [envLat_of_no_fall (not_weFall_of_high rfl)])

variable {s}

theorem resetTick_mem_of_high (h : s.weN = true) : (resetTick s).mem = s.mem :=
  envMem_of_no_edge true h.symm

theorem resetTick_busy_of_high (h : s.weN = true) : (resetTick s).busy = s.busy - 1 :=
  envBusy_of_no_rise (weRise_of_weN_eq h.symm)

/-- A write that a reset cuts short leaves a free value (R293). -/
theorem memRead_resetTick_of_low (hw : s.cfg.devWritable = true) (h : s.weN = false) :
    memRead (resetTick s).mem s.latAddr = Config.freeByte (s.draws + 1) := by
  have hrise : weRise s (blockReset (openTick s)) = true := (weRise_iff ..).mpr ⟨h, rfl⟩
  rw [resetTick, envStep_mem, envMem_of_rise true hrise, memRead_memWrite_same hw]
  rfl

end ResetTick

/-- Settles O2: a step with `RST = 1` is the reset tick, register by register. -/
theorem resetTickResetsBlock : Obligations.ResetTickResetsBlock := by
  intro s hc hr
  exact ⟨resetTick s, step_of_rst hc hr, resetTick_block s, resetTick_cfg s, resetTick_sr s, resetTick_latAddr s,
    rfl, rfl, rfl, fun hw => ⟨resetTick_mem_of_high hw, resetTick_busy_of_high hw⟩⟩

/-- Settles O3: at the latched address by the level of `WE_N`, elsewhere from what a boundary can touch. -/
theorem resetGarblesOnlyByteUnderWrite : Obligations.ResetGarblesOnlyByteUnderWrite := by
  intro s hc hw hr
  exact ⟨resetTick s, step_of_rst hc hr, fun a => memRead_resetTick_other s,
    fun hlow => ⟨_, memRead_resetTick_of_low hw hlow⟩, fun hhigh => by rw [resetTick_mem_of_high hhigh]⟩

end Sys2Proof.Proofs
end

section
/-! PROOFS. The configurations a model accepts (spec/70_reset_and_hazards.md R310), item by item. -/

namespace Sys2Proof.Proofs

open Sys2Proof Sys2Proof.Machine

variable (c : Config)

theorem cfgDurations_iff : cfgDurations c = true ↔
    ∀ n ∈ [c.tSu, c.tHi, c.tSettle, c.tWe, c.tHold, c.tAcc, c.tTurn], 1 ≤ n ∧ n < 2 ^ cfgDw c := by
  simp only [cfgDurations, List.all_eq_true, Bool.and_eq_true, decide_eq_true_eq]

theorem cfgMinimaMet_iff : cfgMinimaMet c = true ↔
    c.minSu ≤ c.tSu ∧ c.minHi ≤ c.tHi ∧ c.minWe ≤ c.tWe ∧ c.minHold ≤ c.tHold := by
  simp only [cfgMinimaMet, Bool.and_eq_true, decide_eq_true_eq, and_assoc]

/-- `AW` is the exponent of a size that is a power of two (R11). -/
theorem deviceSize_eq_two_pow_iff : c.deviceSize = 2 ^ cfgAw c ↔ ∃ k, c.deviceSize = 2 ^ k :=
  ⟨fun h => ⟨_, h⟩, fun ⟨k, hk⟩ => by rw [cfgAw, hk, Nat.log2_two_pow]⟩

/-- A power of two is at least 1, so item 6's lower bound adds nothing. -/
theorem cfgRanges_iff : cfgRanges c = true ↔
    (∃ k, c.deviceSize = 2 ^ k) ∧ c.deviceSize ≤ 65536 ∧ c.pBegin ≤ c.pEnd ∧ c.pEnd ≤ c.deviceSize ∧
      c.vBegin ≤ c.vEnd ∧ c.vEnd ≤ c.deviceSize ∧ 1 ≤ c.pageSize := by
  simp only [cfgRanges, Bool.and_eq_true, decide_eq_true_eq, and_assoc, deviceSize_eq_two_pow_iff]
  refine and_congr_right fun ⟨k, hk⟩ => and_iff_right ?_
  rw [hk]
  exact Nat.one_le_two_pow

/-- Settles O7: each item's check is its proposition, and the step refuses first. -/
theorem configurationConstraints : Obligations.ConfigurationConstraints := by
  refine ⟨fun c => ?_, fun s => step_of_invalid⟩
  simp only [configValid, cfgSettleCoversWrite, cfgTurnCoversSettle, cfgAccessCovered, cfgSegFive, Bool.and_eq_true,
    decide_eq_true_eq, beq_iff_eq, and_assoc, cfgDurations_iff, cfgMinimaMet_iff, cfgRanges_iff]

end Sys2Proof.Proofs
end

section
/-! PROOFS. The hazards that the block's structure excludes (spec/70_reset_and_hazards.md R301 to R307), each read off
the invariant's row for the state of `SEQ` it is about. -/

namespace Sys2Proof.Proofs

open Sys2Proof Sys2Proof.Machine

variable {s t : State}

/-! ### How the states with an active edge are entered -/

/-- A write pulse starts only at the exit of the settle time (R206). -/
theorem seq_of_exitEntry_wrLow (h : (exitEntry s).1 = .wrLow) : s.seq = .wrSettle := by
  cases hq : s.seq <;> simp only [exitEntry, hq] at h
  case wrSettle => rfl
  case shHigh => split_ifs at h
  all_goals cases h

/-- `SER_CLK` rises only at the exit of the set-up time (R201). -/
theorem seq_of_exitEntry_shHigh (h : (exitEntry s).1 = .shHigh) : s.seq = .shSetup := by
  cases hq : s.seq <;> simp only [exitEntry, hq] at h
  case shSetup => rfl
  case shHigh => split_ifs at h
  all_goals cases h

/-- No command is accepted into a write pulse or a clock pulse (R192). -/
theorem exec_seq_not_pulse {i : Instr} {a u : State} (ha : a.seq = .idle) (h : exec i a = .next u) :
    u.seq ≠ .wrLow ∧ u.seq ≠ .shHigh := by
  rcases exec_next h with rfl | ⟨b, rfl⟩ | ⟨x, rfl⟩ | rfl | rfl | rfl <;> simp [ha]

/-- A step that enters a write pulse or a clock pulse is the exit of the timed state before it (R192, R193, R291). -/
theorem exit_of_pulse_entered (hs : Inv s) (h : step s = .next t) (hpulse : t.seq = .wrLow ∨ t.seq = .shHigh)
    (hne : s.seq ≠ t.seq) : s.dc = 1 ∧ (exitEntry s).1 = t.seq := by
  obtain ⟨-, -, -, -, ⟨-, hleft⟩, -⟩ := id hs
  obtain ⟨-, ⟨-, rfl⟩ | ⟨-, hq, i, u, -, hx, rfl⟩ | ⟨-, hq, rfl⟩⟩ := step_next h
  case inl => rcases hpulse with h | h <;> cases h
  case inr.inl =>
    obtain ⟨hlow, hhigh⟩ := exec_seq_not_pulse ((acceptState_seq s).trans hq) hx
    exact (hpulse.elim hlow hhigh).elim
  case inr.inr =>
    rcases busyTick_cases hq (hleft hq) with ⟨-, ht⟩ | ⟨hdc, ht⟩ <;> rw [ht] at hne ⊢
    · exact absurd rfl hne
    · exact ⟨hdc, (congrArg Prod.fst (exitTick_entry hq hdc)).symm⟩

/-! ### The data lines -/

/-- Settles O45: the invariant holds after every run, and under it the device's output is off while `DIR = 1`. -/
theorem busNeverContended : Obligations.BusNeverContended := by
  rintro n s t hs hrun ⟨hdir, hoe, -⟩
  obtain ⟨-, -, -, ⟨-, hoff, -⟩, -⟩ := (inv_iff t).mp (runFor_keeps_inv hs hrun)
  cases (hoff hdir).symm.trans hoe

/-! ### The address -/

/-- `SR` changes at a rise of `SER_CLK` only (R61). -/
theorem serRise_of_sr_ne (h : step s = .next t) (hne : t.sr ≠ s.sr) : s.serClk = false ∧ t.serClk = true := by
  obtain ⟨hsr, -⟩ := step_next_environment h
  by_contra hno
  rw [← serRise_iff, Bool.not_eq_true] at hno
  exact hne (hsr.trans (envSr_of_no_rise hno))

/-- Settles O46: a shift is the exit of the set-up time into the clock's high time, and `WE_N` is 1 in both. -/
theorem shiftsOnlyWithWriteDisabled : Obligations.ShiftsOnlyWithWriteDisabled := by
  intro s t hs h hne
  obtain ⟨hlow, hhigh⟩ := serRise_of_sr_ne h hne
  obtain ⟨-, -, -, ⟨hwe, hclk⟩, -⟩ := id hs
  obtain ⟨-, -, -, ⟨hwe', hclk'⟩, -⟩ := stepKeepsInvariant s t hs h
  have hnext : t.seq = .shHigh := hclk'.mp hhigh
  have hchange : s.seq ≠ t.seq := fun heq => by simp [hclk.mpr (heq.trans hnext)] at hlow
  obtain ⟨-, hentry⟩ := exit_of_pulse_entered hs h (.inr hnext) hchange
  have hsetup : s.seq = .shSetup := seq_of_exitEntry_shHigh (hentry.trans hnext)
  exact ⟨by simpa [hsetup] using hwe, by simpa [hnext] using hwe'⟩

/-! ### Write pulses -/

/-- A write pulse starts in the last tick of the settle time, which outlasts the device's write cycle (R305). -/
theorem busy_eq_zero_of_fall (hs : Inv s) (h : step s = .next t) (hhigh : s.weN = true) (hlow : t.weN = false) :
    s.busy = 0 := by
  obtain ⟨-, -, -, ⟨hwe, -⟩, -, -, ⟨hsettle, -⟩, -⟩ := id hs
  obtain ⟨-, -, -, ⟨hwe', -⟩, -⟩ := stepKeepsInvariant s t hs h
  have hnext : t.seq = .wrLow := hwe'.mp hlow
  have hchange : s.seq ≠ t.seq := fun heq => by simp [hwe.mpr (heq.trans hnext)] at hhigh
  obtain ⟨hdc, hentry⟩ := exit_of_pulse_entered hs h (.inl hnext) hchange
  obtain ⟨-, -, hlt⟩ := hsettle (seq_of_exitEntry_wrLow (hentry.trans hnext))
  omega

theorem bus_of_block_drives (hdir : s.dir = true) (hoe : s.oeN = true) : bus s = s.dOut := by
  simp [bus, busDriven, hdir, hoe]

/-- Under the invariant a pulse that no reset cuts short has the block's byte on the lines (R63, R205). -/
theorem pulseByte_of_low (hs : Inv s) (hlow : s.weN = false) : pulseByte false s = s.dOut := by
  obtain ⟨-, -, ⟨-, -, hgood⟩, ⟨hwe, -⟩, -, -, ⟨-, hpulse, -⟩, -⟩ := id hs
  obtain ⟨hdir, hoe, -⟩ := hpulse (hwe.mp hlow)
  rw [pulseByte_of_good hoe hgood, bus_of_block_drives hdir hoe]

/-- Settles O47, edge by edge of `WE_N`. -/
theorem writePulsesNeverViolate : Obligations.WritePulsesNeverViolate := by
  intro s t hs hrst h
  refine ⟨busy_eq_zero_of_fall hs h, fun hlow hhigh => ?_⟩
  obtain ⟨-, -, hmem, -⟩ := step_next_environment h
  rw [hmem, hrst, envMem_of_rise false ((weRise_iff s t).mpr ⟨hlow, hhigh⟩), pulseByte_of_low hs hlow]

/-! ### Samples -/

/-- In the last tick of a READ's wait the device is idle and its address has settled (R306, R307). -/
theorem readSample_of_inv (hs : Inv s) (hq : s.seq = .rdWait) (hdc : s.dc = 1) :
    readSample s = memRead s.mem (devAddr s.cfg s.sr) := by
  obtain ⟨-, -, -, ⟨-, -, hidle⟩, hrow, -⟩ := (inv_iff s).mp hs
  rw [hq] at hrow
  obtain ⟨hwe, -, hdir, hoe, hwait⟩ := hrow
  exact readSample_of_device hdir hoe hwe (hidle hoe) (by omega)

theorem exitTick_mem_of_rdWait (hq : s.seq = .rdWait) : (exitTick s).mem = s.mem := by
  have hwe : (exitRdWait (readSample s) (openTick s)).weN = s.weN := rfl
  simp only [exitTick, seqExit, openTick_seq, hq, envStep_mem, envMem_of_no_edge false hwe]

/-- Settles O48: the exit of the wait takes the sample and moves no edge of `WE_N`. -/
theorem samplesAreDeviceBytes : Obligations.SamplesAreDeviceBytes := by
  intro s hs hrst hq hdc
  obtain ⟨hvalid, -⟩ := id hs
  exact ⟨exitTick s, step_exit_of_rstNow hvalid hrst (by simp [hq]) hdc,
    (exitTick_rdata_of_rdWait hq).trans (readSample_of_inv hs hq hdc), exitTick_mem_of_rdWait hq⟩

end Sys2Proof.Proofs
end
